-- ==== Sys2Proof/Word.lean ====
section
/-! DEFINITION. The word types of the machine (00_scope.md R4, R6): a byte is 8 bits, a general register
and an address are 16 bits, a nibble is 4 bits. Bit vectors, because the spec slices, concatenates and
wraps these values. -/

namespace Sys2Proof

/-- D, T, a memory byte, a port, an opcode or operand byte (00_scope.md R4 `DATA_WIDTH`). -/
abbrev Byte := BitVec 8

/-- A general register or a memory address (00_scope.md R4 `REG_WIDTH`, `ADDR_WIDTH`). -/
abbrev Word := BitVec 16

/-- A register number, and the selectors P and X (10_state.md R17, R18). -/
abbrev Nibble := BitVec 4

end Sys2Proof
end

