-- ==== Sys2Proof/Syntax.lean ====
section
/-! DEFINITION. The instructions: one constructor for each row of spec/opcode_table.json (30_encoding.md R61, R65),
in the table's order. The operand of a REG form is the low nibble of the opcode; an IMM8 or SHORT_BRANCH form
carries its one operand byte, a LONG_BRANCH form its 16-bit target. A skip carries nothing: the bytes it passes
over are never read (R62). -/

namespace Sys2Proof

inductive Instr where
  /-- IDL (IMPLIED, R206) -/
  | idl
  /-- LDN (REG, R141) -/
  | ldn (n : Nibble)
  /-- INC (REG, R149) -/
  | inc (n : Nibble)
  /-- DEC (REG, R150) -/
  | dec (n : Nibble)
  /-- BR (SHORT_BRANCH, R164) -/
  | br (addr : Byte)
  /-- BQ (SHORT_BRANCH, R165) -/
  | bq (addr : Byte)
  /-- BZ (SHORT_BRANCH, R166) -/
  | bz (addr : Byte)
  /-- BDF (SHORT_BRANCH, R167) -/
  | bdf (addr : Byte)
  /-- B1 (SHORT_BRANCH, R168) -/
  | b1 (addr : Byte)
  /-- B2 (SHORT_BRANCH, R169) -/
  | b2 (addr : Byte)
  /-- B3 (SHORT_BRANCH, R170) -/
  | b3 (addr : Byte)
  /-- B4 (SHORT_BRANCH, R171) -/
  | b4 (addr : Byte)
  /-- SKP (SHORT_SKIP, R172) -/
  | skp
  /-- BNQ (SHORT_BRANCH, R173) -/
  | bnq (addr : Byte)
  /-- BNZ (SHORT_BRANCH, R174) -/
  | bnz (addr : Byte)
  /-- BNF (SHORT_BRANCH, R175) -/
  | bnf (addr : Byte)
  /-- BN1 (SHORT_BRANCH, R176) -/
  | bn1 (addr : Byte)
  /-- BN2 (SHORT_BRANCH, R177) -/
  | bn2 (addr : Byte)
  /-- BN3 (SHORT_BRANCH, R178) -/
  | bn3 (addr : Byte)
  /-- BN4 (SHORT_BRANCH, R179) -/
  | bn4 (addr : Byte)
  /-- LDA (REG, R142) -/
  | lda (n : Nibble)
  /-- STR (REG, R146) -/
  | str (n : Nibble)
  /-- IRX (IMPLIED, R148) -/
  | irx
  /-- OUT 1 (PORT, R224) -/
  | out1
  /-- OUT 2 (PORT, R224) -/
  | out2
  /-- OUT 3 (PORT, R224) -/
  | out3
  /-- OUT 4 (PORT, R224) -/
  | out4
  /-- OUT 5 (PORT, R224) -/
  | out5
  /-- OUT 6 (PORT, R224) -/
  | out6
  /-- OUT 7 (PORT, R224) -/
  | out7
  /-- INP 1 (PORT, R225) -/
  | inp1
  /-- INP 2 (PORT, R225) -/
  | inp2
  /-- INP 3 (PORT, R225) -/
  | inp3
  /-- INP 4 (PORT, R225) -/
  | inp4
  /-- INP 5 (PORT, R225) -/
  | inp5
  /-- INP 6 (PORT, R225) -/
  | inp6
  /-- INP 7 (PORT, R225) -/
  | inp7
  /-- RET (IMPLIED, R202) -/
  | ret
  /-- DIS (IMPLIED, R203) -/
  | dis
  /-- LDXA (IMPLIED, R144) -/
  | ldxa
  /-- STXD (IMPLIED, R147) -/
  | stxd
  /-- ADC (IMPLIED, R119) -/
  | adc
  /-- SDB (IMPLIED, R123) -/
  | sdb
  /-- SHRC (IMPLIED, R130) -/
  | shrc
  /-- SMB (IMPLIED, R127) -/
  | smb
  /-- SAV (IMPLIED, R205) -/
  | sav
  /-- MARK (IMPLIED, R204) -/
  | mark
  /-- REQ (IMPLIED, R227) -/
  | req
  /-- SEQ (IMPLIED, R226) -/
  | seq
  /-- ADCI (IMM8, R120) -/
  | adci (imm : Byte)
  /-- SDBI (IMM8, R124) -/
  | sdbi (imm : Byte)
  /-- SHLC (IMPLIED, R132) -/
  | shlc
  /-- SMBI (IMM8, R128) -/
  | smbi (imm : Byte)
  /-- GLO (REG, R151) -/
  | glo (n : Nibble)
  /-- GHI (REG, R152) -/
  | ghi (n : Nibble)
  /-- PLO (REG, R153) -/
  | plo (n : Nibble)
  /-- PHI (REG, R154) -/
  | phi (n : Nibble)
  /-- LBR (LONG_BRANCH, R180) -/
  | lbr (target : Word)
  /-- LBQ (LONG_BRANCH, R181) -/
  | lbq (target : Word)
  /-- LBZ (LONG_BRANCH, R182) -/
  | lbz (target : Word)
  /-- LBDF (LONG_BRANCH, R183) -/
  | lbdf (target : Word)
  /-- NOP (IMPLIED, R184) -/
  | nop
  /-- LSNQ (LONG_SKIP, R185) -/
  | lsnq
  /-- LSNZ (LONG_SKIP, R186) -/
  | lsnz
  /-- LSNF (LONG_SKIP, R187) -/
  | lsnf
  /-- LSKP (LONG_SKIP, R188) -/
  | lskp
  /-- LBNQ (LONG_BRANCH, R189) -/
  | lbnq (target : Word)
  /-- LBNZ (LONG_BRANCH, R190) -/
  | lbnz (target : Word)
  /-- LBNF (LONG_BRANCH, R191) -/
  | lbnf (target : Word)
  /-- LSIE (LONG_SKIP, R192) -/
  | lsie
  /-- LSQ (LONG_SKIP, R193) -/
  | lsq
  /-- LSZ (LONG_SKIP, R194) -/
  | lsz
  /-- LSDF (LONG_SKIP, R195) -/
  | lsdf
  /-- SEP (REG, R200) -/
  | sep (n : Nibble)
  /-- SEX (REG, R201) -/
  | sex (n : Nibble)
  /-- LDX (IMPLIED, R143) -/
  | ldx
  /-- OR (IMPLIED, R111) -/
  | or
  /-- AND (IMPLIED, R112) -/
  | and
  /-- XOR (IMPLIED, R113) -/
  | xor
  /-- ADD (IMPLIED, R117) -/
  | add
  /-- SD (IMPLIED, R121) -/
  | sd
  /-- SHR (IMPLIED, R129) -/
  | shr
  /-- SM (IMPLIED, R125) -/
  | sm
  /-- LDI (IMM8, R145) -/
  | ldi (imm : Byte)
  /-- ORI (IMM8, R114) -/
  | ori (imm : Byte)
  /-- ANI (IMM8, R115) -/
  | ani (imm : Byte)
  /-- XRI (IMM8, R116) -/
  | xri (imm : Byte)
  /-- ADI (IMM8, R118) -/
  | adi (imm : Byte)
  /-- SDI (IMM8, R122) -/
  | sdi (imm : Byte)
  /-- SHL (IMPLIED, R131) -/
  | shl
  /-- SMI (IMM8, R126) -/
  | smi (imm : Byte)
  /-- byte 0x68: no handler, the decode fault (no handler, R66) -/
  | undefined
  deriving DecidableEq, Repr

end Sys2Proof
end

