-- ==== Sys2Proof/WellFormed.lean ====
section
/-! DEFINITION. Which terms of `Instr` stand for an instruction of the machine. There is one check: the family
`LDN N` exists for N = 1..15 only, since opcode 00 is `IDL` (30_encoding.md R67). Every other operand value is
legal (10_state.md R17, R18; 30_encoding.md R68). -/

namespace Sys2Proof

def Instr.wellFormed : Instr → Bool
  | .ldn n => n != 0
  | .idl => true
  | .inc _ => true
  | .dec _ => true
  | .br _ => true
  | .bq _ => true
  | .bz _ => true
  | .bdf _ => true
  | .b1 _ => true
  | .b2 _ => true
  | .b3 _ => true
  | .b4 _ => true
  | .skp => true
  | .bnq _ => true
  | .bnz _ => true
  | .bnf _ => true
  | .bn1 _ => true
  | .bn2 _ => true
  | .bn3 _ => true
  | .bn4 _ => true
  | .lda _ => true
  | .str _ => true
  | .irx => true
  | .out1 => true
  | .out2 => true
  | .out3 => true
  | .out4 => true
  | .out5 => true
  | .out6 => true
  | .out7 => true
  | .inp1 => true
  | .inp2 => true
  | .inp3 => true
  | .inp4 => true
  | .inp5 => true
  | .inp6 => true
  | .inp7 => true
  | .ret => true
  | .dis => true
  | .ldxa => true
  | .stxd => true
  | .adc => true
  | .sdb => true
  | .shrc => true
  | .smb => true
  | .sav => true
  | .mark => true
  | .req => true
  | .seq => true
  | .adci _ => true
  | .sdbi _ => true
  | .shlc => true
  | .smbi _ => true
  | .glo _ => true
  | .ghi _ => true
  | .plo _ => true
  | .phi _ => true
  | .lbr _ => true
  | .lbq _ => true
  | .lbz _ => true
  | .lbdf _ => true
  | .nop => true
  | .lsnq => true
  | .lsnz => true
  | .lsnf => true
  | .lskp => true
  | .lbnq _ => true
  | .lbnz _ => true
  | .lbnf _ => true
  | .lsie => true
  | .lsq => true
  | .lsz => true
  | .lsdf => true
  | .sep _ => true
  | .sex _ => true
  | .ldx => true
  | .or => true
  | .and => true
  | .xor => true
  | .add => true
  | .sd => true
  | .shr => true
  | .sm => true
  | .ldi _ => true
  | .ori _ => true
  | .ani _ => true
  | .xri _ => true
  | .adi _ => true
  | .sdi _ => true
  | .shl => true
  | .smi _ => true
  | .undefined => true

end Sys2Proof
end

