-- ==== Sys2Proof/Decode.lean ====
section
/-! DEFINITION. The decoder, total on any bytes, and after it the encoder, both written from the opcode map and the
formats of 30_encoding.md (R61 to R65); then the host's view of the decoder, `decodeTableWord`. The bit-field helpers
that decoder and machine share stand first. -/

namespace Sys2Proof

/-- The high nibble `b[7:4]` (00_scope.md R6). -/
def hiNibble (b : Byte) : Nibble := b.extractLsb' 4 4

/-- The low nibble `b[3:0]` (00_scope.md R6). -/
def loNibble (b : Byte) : Nibble := b.extractLsb' 0 4

/-- `hi ++ lo` of two nibbles (00_scope.md R7). -/
def joinNibbles (hi lo : Nibble) : Byte := hi ++ lo

/-- The high byte `w[15:8]` (00_scope.md R6). -/
def hiByte (w : Word) : Byte := w.extractLsb' 8 8

/-- The low byte `w[7:0]` (00_scope.md R6). -/
def loByte (w : Word) : Byte := w.extractLsb' 0 8

/-- `hi ++ lo` of two bytes: hi * 256 + lo (00_scope.md R7; the byte order of a long branch, 20_memory.md R47). -/
def joinBytes (hi lo : Byte) : Word := hi ++ lo

/-- Opcode row 3x (30_encoding.md R65): the short branches and the short skip. -/
def decodeRow3 (n : Nibble) (b1 : Byte) : Instr :=
  match n.toNat with
  | 0 => .br b1
  | 1 => .bq b1
  | 2 => .bz b1
  | 3 => .bdf b1
  | 4 => .b1 b1
  | 5 => .b2 b1
  | 6 => .b3 b1
  | 7 => .b4 b1
  | 8 => .skp
  | 9 => .bnq b1
  | 10 => .bnz b1
  | 11 => .bnf b1
  | 12 => .bn1 b1
  | 13 => .bn2 b1
  | 14 => .bn3 b1
  | _ => .bn4 b1

/-- Opcode row 6x: IRX, the ports, and the undefined byte 68 (30_encoding.md R65, R66; 46_io.md R217). -/
def decodeRow6 (n : Nibble) : Instr :=
  match n.toNat with
  | 0 => .irx
  | 1 => .out1
  | 2 => .out2
  | 3 => .out3
  | 4 => .out4
  | 5 => .out5
  | 6 => .out6
  | 7 => .out7
  | 8 => .undefined
  | 9 => .inp1
  | 10 => .inp2
  | 11 => .inp3
  | 12 => .inp4
  | 13 => .inp5
  | 14 => .inp6
  | _ => .inp7

/-- Opcode row 7x (30_encoding.md R65). -/
def decodeRow7 (n : Nibble) (b1 : Byte) : Instr :=
  match n.toNat with
  | 0 => .ret
  | 1 => .dis
  | 2 => .ldxa
  | 3 => .stxd
  | 4 => .adc
  | 5 => .sdb
  | 6 => .shrc
  | 7 => .smb
  | 8 => .sav
  | 9 => .mark
  | 10 => .req
  | 11 => .seq
  | 12 => .adci b1
  | 13 => .sdbi b1
  | 14 => .shlc
  | _ => .smbi b1

/-- Opcode row Cx (30_encoding.md R65): long branches, long skips, NOP. -/
def decodeRowC (n : Nibble) (b1 : Byte) (b2 : Byte) : Instr :=
  match n.toNat with
  | 0 => .lbr (joinBytes b1 b2)
  | 1 => .lbq (joinBytes b1 b2)
  | 2 => .lbz (joinBytes b1 b2)
  | 3 => .lbdf (joinBytes b1 b2)
  | 4 => .nop
  | 5 => .lsnq
  | 6 => .lsnz
  | 7 => .lsnf
  | 8 => .lskp
  | 9 => .lbnq (joinBytes b1 b2)
  | 10 => .lbnz (joinBytes b1 b2)
  | 11 => .lbnf (joinBytes b1 b2)
  | 12 => .lsie
  | 13 => .lsq
  | 14 => .lsz
  | _ => .lsdf

/-- Opcode row Fx (30_encoding.md R65). -/
def decodeRowF (n : Nibble) (b1 : Byte) : Instr :=
  match n.toNat with
  | 0 => .ldx
  | 1 => .or
  | 2 => .and
  | 3 => .xor
  | 4 => .add
  | 5 => .sd
  | 6 => .shr
  | 7 => .sm
  | 8 => .ldi b1
  | 9 => .ori b1
  | 10 => .ani b1
  | 11 => .xri b1
  | 12 => .adi b1
  | 13 => .sdi b1
  | 14 => .shl
  | _ => .smi b1

/-- The dispatch table (30_encoding.md R60, R65): the opcode byte alone selects the instruction; `b1` and `b2` are the
two bytes after it, used by the forms that have operand bytes (R62). Total: byte 68 gives the term that stands for the
missing handler. -/
def decodeOp (op b1 b2 : Byte) : Instr :=
  let n := loNibble op
  match (hiNibble op).toNat with
  | 0 => if n = 0 then .idl else .ldn n
  | 1 => .inc n
  | 2 => .dec n
  | 3 => decodeRow3 n b1
  | 4 => .lda n
  | 5 => .str n
  | 6 => decodeRow6 n
  | 7 => decodeRow7 n b1
  | 8 => .glo n
  | 9 => .ghi n
  | 10 => .plo n
  | 11 => .phi n
  | 12 => decodeRowC n b1 b2
  | 13 => .sep n
  | 14 => .sex n
  | _ => decodeRowF n b1

/-- How many bytes the instruction of opcode byte `op` has (30_encoding.md R62). -/
def opLength (op : Byte) : Nat :=
  if op ∈ [0xC0, 0xC1, 0xC2, 0xC3, 0xC9, 0xCA, 0xCB] then 3
  else if hiNibble op = 3 ∧ op ≠ 0x38 then 2
  else if op ∈ [0x7C, 0x7D, 0x7F, 0xF8, 0xF9, 0xFA, 0xFB, 0xFC, 0xFD, 0xFF] then 2
  else 1

/-- Why a list of bytes holds no whole instruction. No byte value is refused: 68 decodes to the term `undefined`. -/
inductive DecodeError where
  /-- there is no opcode byte -/
  | noByte
  /-- the bytes end before the operand bytes of this opcode do -/
  | truncated (op : Byte)
  deriving DecidableEq, Repr

/-- The instruction at the front of a list of bytes and the bytes after it. -/
def decode (bytes : List Byte) : Except DecodeError (Instr × List Byte) :=
  match bytes with
  | [] => .error .noByte
  | op :: rest =>
    if rest.length + 1 < opLength op then .error (.truncated op)
    else .ok (decodeOp op (rest.getD 0 0) (rest.getD 1 0), rest.drop (opLength op - 1))

/-- The bytes of an instruction (30_encoding.md R61, R65): the opcode byte, then the operand bytes, a long branch's
target high byte first. -/
def encode : Instr → List Byte
  | .idl => [0x00]
  | .ldn n => [joinNibbles 0x0 n]
  | .inc n => [joinNibbles 0x1 n]
  | .dec n => [joinNibbles 0x2 n]
  | .br b => [0x30, b]
  | .bq b => [0x31, b]
  | .bz b => [0x32, b]
  | .bdf b => [0x33, b]
  | .b1 b => [0x34, b]
  | .b2 b => [0x35, b]
  | .b3 b => [0x36, b]
  | .b4 b => [0x37, b]
  | .skp => [0x38]
  | .bnq b => [0x39, b]
  | .bnz b => [0x3A, b]
  | .bnf b => [0x3B, b]
  | .bn1 b => [0x3C, b]
  | .bn2 b => [0x3D, b]
  | .bn3 b => [0x3E, b]
  | .bn4 b => [0x3F, b]
  | .lda n => [joinNibbles 0x4 n]
  | .str n => [joinNibbles 0x5 n]
  | .irx => [0x60]
  | .out1 => [0x61]
  | .out2 => [0x62]
  | .out3 => [0x63]
  | .out4 => [0x64]
  | .out5 => [0x65]
  | .out6 => [0x66]
  | .out7 => [0x67]
  | .inp1 => [0x69]
  | .inp2 => [0x6A]
  | .inp3 => [0x6B]
  | .inp4 => [0x6C]
  | .inp5 => [0x6D]
  | .inp6 => [0x6E]
  | .inp7 => [0x6F]
  | .ret => [0x70]
  | .dis => [0x71]
  | .ldxa => [0x72]
  | .stxd => [0x73]
  | .adc => [0x74]
  | .sdb => [0x75]
  | .shrc => [0x76]
  | .smb => [0x77]
  | .sav => [0x78]
  | .mark => [0x79]
  | .req => [0x7A]
  | .seq => [0x7B]
  | .adci b => [0x7C, b]
  | .sdbi b => [0x7D, b]
  | .shlc => [0x7E]
  | .smbi b => [0x7F, b]
  | .glo n => [joinNibbles 0x8 n]
  | .ghi n => [joinNibbles 0x9 n]
  | .plo n => [joinNibbles 0xA n]
  | .phi n => [joinNibbles 0xB n]
  | .lbr t => [0xC0, hiByte t, loByte t]
  | .lbq t => [0xC1, hiByte t, loByte t]
  | .lbz t => [0xC2, hiByte t, loByte t]
  | .lbdf t => [0xC3, hiByte t, loByte t]
  | .nop => [0xC4]
  | .lsnq => [0xC5]
  | .lsnz => [0xC6]
  | .lsnf => [0xC7]
  | .lskp => [0xC8]
  | .lbnq t => [0xC9, hiByte t, loByte t]
  | .lbnz t => [0xCA, hiByte t, loByte t]
  | .lbnf t => [0xCB, hiByte t, loByte t]
  | .lsie => [0xCC]
  | .lsq => [0xCD]
  | .lsz => [0xCE]
  | .lsdf => [0xCF]
  | .sep n => [joinNibbles 0xD n]
  | .sex n => [joinNibbles 0xE n]
  | .ldx => [0xF0]
  | .or => [0xF1]
  | .and => [0xF2]
  | .xor => [0xF3]
  | .add => [0xF4]
  | .sd => [0xF5]
  | .shr => [0xF6]
  | .sm => [0xF7]
  | .ldi b => [0xF8, b]
  | .ori b => [0xF9, b]
  | .ani b => [0xFA, b]
  | .xri b => [0xFB, b]
  | .adi b => [0xFC, b]
  | .sdi b => [0xFD, b]
  | .shl => [0xFE]
  | .smi b => [0xFF, b]
  | .undefined => [0x68]

/-- The opcode byte of an instruction. -/
def opcodeOf (i : Instr) : Byte := (encode i).headD 0

/-- The longest instruction has three bytes (30_encoding.md R62). -/
def tableBytes (nbits w : Nat) : List Byte :=
  let v := w % 2 ^ nbits
  [BitVec.ofNat 8 v, BitVec.ofNat 8 (v / 2 ^ 8), BitVec.ofNat 8 (v / 2 ^ 16)]

/-- What the decoder reads from an instruction whose bits are `w`, numbered as spec/opcode_table.json numbers them:
the opcode byte is bits 7..0, the first operand byte bits 15..8, the second bits 23..16; every bit above `nbits` is 0. -/
def decodeTableWord (nbits w : Nat) : Option Instr :=
  match decode (tableBytes nbits w) with
  | .ok (i, _) => some i
  | .error _ => none

end Sys2Proof
end

