-- ==== Sys2Proof/Config.lean ====
section
/-! DEFINITION. What is fixed for this hardware (00_scope.md R4), and the one free value of the model. -/

namespace Sys2Proof

/-- `MEM_SIZE` = 65536: every 16-bit address names exactly one byte (00_scope.md R4, 20_memory.md R40). -/
def Config.memSize : Nat := 65536

/-- `CYCLES_PER_MS` = 224, the only number the pacing algorithm uses (41_pacing_scheduler.md R101). -/
def Config.cyclesPerMs : Nat := 224

/-- FREE VALUE (log 5): by how many milliseconds the host's wall clock has moved at its n-th sample that no
input of State says anything about (41_pacing_scheduler.md R101; 93_implementation_defined.md U6, U7). It has
no body: nothing can be proved about the number. No architectural value depends on it (R107). -/
opaque Config.freeClock : Nat → Nat

end Sys2Proof
end

