-- ==== Sys2Proof/Machine/State.lean ====
section
/-! DEFINITION. The state of the core as plain data (10_state.md), the host's operations as data (60_exceptions.md
R252), the reasons a step can be refused, the state at construction (70_reset_and_hazards.md R262) and the state
right after reset (R260). -/

namespace Sys2Proof.Machine

/-- Memory (20_memory.md R40): addresses strictly rising, no entry equal to what an unlisted address reads as. -/
abbrev Memory := List Host.Cell

/-- What a byte that nothing has written reads as. The spec gives no value (10_state.md R33, `INIT`).
DESIGN CHOICE (log 2): 0x00. Unsafe: a claim about memory that nothing wrote may lean on it. -/
def unwrittenByte : Byte := 0x00

/-- An item of the output event trace (46_io.md R222): what an observer is told. -/
inductive PortEvent where
  /-- output port register `i` (array index 0..6) now holds `v` -/
  | portChanged (i : Fin 7) (v : Byte)
  /-- the Q latch is now `q` -/
  | qChanged (q : Bool)
  deriving DecidableEq, Repr

/-- A registered observer (46_io.md R223): a name for the host's pair of callbacks, and how many events the trace
held when it was registered, so that what it has been told is a suffix of the trace (log 7). -/
structure Observer where
  callbacks : Nat
  since : Nat
  deriving DecidableEq, Repr

/-- The pacing scheduler's three variables (41_pacing_scheduler.md R100). -/
structure Pace where
  /-- machine cycles executed since the last checkpoint -/
  count : Nat
  /-- the target cycle budget -/
  budget : Nat
  /-- the wall-clock sample of the last checkpoint, in milliseconds -/
  lastMs : Nat
  deriving DecidableEq, Repr

/-- The host operations that change state (60_exceptions.md R252), and `tick`, by which the wall clock moves
(41_pacing_scheduler.md R101; log 4). Index, address and offset arguments are integers, so that an argument outside
the legal domain can be written down and is refused (R255). -/
inductive HostCall where
  | reset
  | run
  | stop
  | setSingleStep (on : Bool)
  | setCycleCap (cap : Option Nat)
  | setExternalFlag (index : Int) (asserted : Bool)
  | setByte (address : Int) (value : Byte)
  | setBytes (offset : Int) (bytes : List Byte)
  | setWriteProtect (on : Bool)
  | setInPort (index : Int) (value : Byte)
  | setOutPort (index : Int) (value : Byte)
  | setQ (q : Bool)
  | registerObserver (callbacks : Nat)
  /-- the wall clock advances by this many milliseconds -/
  | tick (ms : Nat)
  deriving DecidableEq, Repr

/-- The host operations that only read (60_exceptions.md R252). -/
inductive HostQuery where
  | isStop
  | isIdle
  | getD
  | getDF
  | getX
  | getP
  | getIE
  | getT
  | getR (index : Int)
  | getCycles
  | getByte (address : Int)
  | getUnsignedByte (address : Int)
  | isWriteProtected
  | getInPort (index : Int)
  | getOutPort (index : Int)
  | isQOn
  deriving DecidableEq, Repr

/-- Why the machine stops with a fault. NO CONSTRUCTOR: the only fault of the spec, the decode fault, is taken (it
ends the run and leaves a state, 60_exceptions.md R237, R244; log 9), and there are no other exceptions (R238). -/
inductive Fault : Type
  deriving DecidableEq, Repr

/-- Why an instruction or a host operation is refused. All safe: the model gives no result. -/
inductive Refusal where
  /-- an instruction that has no meaning yet; raised by `exec` alone; safe -/
  | notModelled (mnemonic : String)
  /-- a host operation that the contract forbids while a run is in progress (60_exceptions.md R253, D19); raised by
  `hostCall`; safe -/
  | hostCallDuringRun (call : HostCall)
  /-- an index, address or offset outside the legal domain (60_exceptions.md R255, D18); raised by `hostCall`; safe -/
  | argumentOutOfRange (call : HostCall)
  /-- a host read while a run is in progress, to which the spec gives no meaning (60_exceptions.md R253, D13); raised
  by `hostQuery`; safe -/
  | readDuringRun (query : HostQuery)
  /-- a host read with an index or address outside the legal domain (60_exceptions.md R255); raised by `hostQuery`;
  safe -/
  | readOutOfRange (query : HostQuery)
  deriving DecidableEq, Repr

/-- The state of the core. The comment of a field names its rule; the last three are the model's own. -/
structure State where
  /-- the sixteen general registers (10_state.md R10); `R[P]` is the program counter (R13) -/
  regs : Vector Word 16
  /-- accumulator D (R14) -/
  d : Byte
  /-- carry / no-borrow flag DF (R15) -/
  df : Bool
  /-- save register T (R16) -/
  t : Byte
  /-- program-counter selector P (R17) -/
  p : Nibble
  /-- data-pointer selector X (R18) -/
  x : Nibble
  /-- interrupt-enable flag IE, read by `LSIE` alone (R19) -/
  ie : Bool
  /-- external flags: index k is EF(k+1), true is asserted (R20) -/
  ef : Vector Bool 4
  /-- the Q latch (R21) -/
  q : Bool
  /-- cycle counter (R22) -/
  cycles : Nat
  /-- idle flag (R23) -/
  idle : Bool
  /-- stop-requested flag (R24) -/
  stopReq : Bool
  /-- an invocation of run() is in progress (R25) -/
  running : Bool
  /-- the single-step toggle (R26) -/
  stepMode : Bool
  /-- the run in progress was entered in single-step mode: `step_mode` is read once, at entry (40_execution_loop.md R86) -/
  stepRun : Bool
  /-- the cycle cap (R26) -/
  cycleCap : Option Nat
  /-- Mem[0..65535] (R27) -/
  mem : Memory
  /-- write-protect latch MP (R27) -/
  mp : Bool
  /-- InPort[0..6] (R28) -/
  inPort : Vector Byte 7
  /-- OutPort[0..6] (R28) -/
  outPort : Vector Byte 7
  /-- the registered observer (R29) -/
  observer : Option Observer
  /-- the output event trace, oldest first (R29) -/
  events : List PortEvent
  /-- pacing scheduler (R30) -/
  pace : Pace
  /-- the fault record (R31) -/
  fault : Option Byte
  /-- what the wall clock reads now, in milliseconds (41_pacing_scheduler.md R101; log 4) -/
  clockMs : Nat
  /-- how many values of `Config.freeClock` have been used (log 5) -/
  clockReads : Nat
  /-- the host's calls still to come: the head list falls at the next instruction boundary (10_state.md R34; log 3) -/
  inputs : List (List HostCall)
  deriving DecidableEq, Repr

/-- The power-on values that the spec leaves open: the parameter `INIT` (00_scope.md R4, 10_state.md R33). -/
structure Init where
  regs : Vector Word 16
  d : Byte
  df : Bool
  t : Byte
  p : Nibble
  x : Nibble
  ie : Bool
  ef : Vector Bool 4
  q : Bool
  cycles : Nat
  idle : Bool
  mem : Memory
  inPort : Vector Byte 7
  outPort : Vector Byte 7
  pace : Pace
  clockMs : Nat
  deriving DecidableEq, Repr

/-- Construction (70_reset_and_hazards.md R262): the values of `INIT`, and the fixed defaults of the configuration and
bookkeeping variables (D7). No host call is pending. -/
def State.construct (init : Init) : State where
  regs := init.regs
  d := init.d
  df := init.df
  t := init.t
  p := init.p
  x := init.x
  ie := init.ie
  ef := init.ef
  q := init.q
  cycles := init.cycles
  idle := init.idle
  stopReq := false
  running := false
  stepMode := false
  stepRun := false
  cycleCap := none
  mem := init.mem
  mp := false
  inPort := init.inPort
  outPort := init.outPort
  observer := none
  events := []
  pace := init.pace
  fault := none
  clockMs := init.clockMs
  clockReads := 0
  inputs := []

/-- DESIGN CHOICE (logs 1, 2, 8): the one `INIT` this model starts from, every value zero. Unsafe: the spec gives none. -/
def Init.zero : Init where
  regs := Vector.replicate 16 0
  d := 0
  df := false
  t := 0
  p := 0
  x := 0
  ie := false
  ef := Vector.replicate 4 false
  q := false
  cycles := 0
  idle := false
  mem := []
  inPort := Vector.replicate 7 0
  outPort := Vector.replicate 7 0
  pace := { count := 0, budget := 0, lastMs := 0 }
  clockMs := 0

/-- The machine right after reset (10_state.md R33; 70_reset_and_hazards.md R260): IE = 1, X = 0, P = 0, R[0] = 0,
cycles = 0, idle = false, Q = false from the spec; D, DF, T, R[1..15], EF, the ports and memory from `Init.zero`
(logs 1, 2). The host's next action is `run()` (R266, step 6; log 3). -/
def State.reset : State where
  regs := Vector.replicate 16 0
  d := 0
  df := false
  t := 0
  p := 0
  x := 0
  ie := true
  ef := Vector.replicate 4 false
  q := false
  cycles := 0
  idle := false
  stopReq := false
  running := false
  stepMode := false
  stepRun := false
  cycleCap := none
  mem := []
  mp := false
  inPort := Vector.replicate 7 0
  outPort := Vector.replicate 7 0
  observer := none
  events := []
  pace := { count := 0, budget := 0, lastMs := 0 }
  fault := none
  clockMs := 0
  clockReads := 0
  inputs := [[.run]]

end Sys2Proof.Machine
end

