-- ==== Sys2Proof/Machine/Ops.lean ====
section
/-! DEFINITION. The named operations over memory, registers, the output side and the cycle counter, and taking the
decode fault. Every meaning and every host operation goes through these. -/

namespace Sys2Proof.Machine

/-! ### Memory (20_memory.md) -/

/-- The byte at an address (R41). -/
def Memory.read (m : Memory) (a : Nat) : Byte :=
  match m with
  | [] => unwrittenByte
  | (k, v) :: rest => if k = a then v else Memory.read rest a

/-- An entry put in its place in the order of addresses. -/
def Memory.insert (m : Memory) (a : Nat) (v : Byte) : Memory :=
  match m with
  | [] => [(a, v)]
  | (k, w) :: rest => if a < k then (a, v) :: (k, w) :: rest else (k, w) :: Memory.insert rest a v

/-- Store a byte (R42), keeping the canonical form: the old entry goes, and the value that an unlisted address reads as
leaves no new one. -/
def Memory.write (m : Memory) (a : Nat) (v : Byte) : Memory :=
  let rest := m.filter fun c => c.1 != a
  if v = unwrittenByte then rest else Memory.insert rest a v

/-- Store bytes at rising addresses; a byte that would land at or beyond the end of memory is discarded (R43). -/
def Memory.writeAll (m : Memory) (a : Nat) (bytes : List Byte) : Memory :=
  match bytes with
  | [] => m
  | b :: bs => Memory.writeAll (if a < Config.memSize then Memory.write m a b else m) (a + 1) bs

/-- The canonical form from address `lo` on. -/
def Memory.wfFrom (lo : Nat) (m : Memory) : Bool :=
  match m with
  | [] => true
  | (k, v) :: rest => decide (lo ≤ k) && decide (k < Config.memSize) && v != unwrittenByte && Memory.wfFrom (k + 1) rest

/-- The canonical form: addresses of the machine, strictly rising, no entry equal to what an unlisted address reads as. -/
def Memory.wf (m : Memory) : Bool := Memory.wfFrom 0 m

/-- `MemRead(a, 1)` (R41). -/
def readByte (s : State) (a : Word) : Byte := Memory.read s.mem a.toNat

/-- `MemWrite(a, 1, v)` (R42): dropped silently while the write-protect latch is set. -/
def writeByte (s : State) (a : Word) (v : Byte) : State :=
  if s.mp then s else { s with mem := Memory.write s.mem a.toNat v }

/-! ### General registers (10_state.md R10 to R13) -/

/-- `R[n]`. -/
def getReg (s : State) (n : Nibble) : Word := s.regs[n.toNat]

/-- `R[n] <- v`. -/
def setReg (s : State) (n : Nibble) (v : Word) : State := { s with regs := s.regs.set n.toNat v }

/-- The program counter: `R[P]` (R13). -/
def pc (s : State) : Word := getReg s s.p

/-- `R[P] <- v`. -/
def setPc (s : State) (v : Word) : State := setReg s s.p v

/-- `R[P] <- R[P] + k`, mod 65536 (R11). -/
def advancePc (s : State) (k : Word) : State := setPc s (pc s + k)

/-- D <- v. -/
def setD (s : State) (v : Byte) : State := { s with d := v }

/-! ### Output side (46_io.md) -/

/-- `OutPortWrite(i, v)` (R220): a value that the register already holds is no change and no event. -/
def outPortWrite (s : State) (i : Fin 7) (v : Byte) : State :=
  if s.outPort[i] = v then s
  else { s with outPort := s.outPort.set i v, events := s.events ++ [.portChanged i v] }

/-- `QWrite(b)` (R221). -/
def qWrite (s : State) (b : Bool) : State :=
  if s.q = b then s else { s with q := b, events := s.events ++ [.qChanged b] }

/-- What the registered observer has been told: the events since its registration (46_io.md R223). -/
def deliveredEvents (s : State) : List PortEvent :=
  match s.observer with
  | none => []
  | some o => s.events.drop o.since

/-! ### Cycle cost (40_execution_loop.md R84) -/

/-- `cost(op)`: 3 for the sixteen opcodes C0..CF, 2 for every other instruction; the missing handler of byte 68 adds
nothing (R83). -/
def cost : Instr → Nat
  | .lbr _ | .lbq _ | .lbz _ | .lbdf _ | .nop | .lsnq | .lsnz | .lsnf
  | .lskp | .lbnq _ | .lbnz _ | .lbnf _ | .lsie | .lsq | .lsz | .lsdf => 3
  | .undefined => 0
  | .idl | .ldn _ | .inc _ | .dec _
  | .br _ | .bq _ | .bz _ | .bdf _ | .b1 _ | .b2 _ | .b3 _ | .b4 _
  | .skp | .bnq _ | .bnz _ | .bnf _ | .bn1 _ | .bn2 _ | .bn3 _ | .bn4 _
  | .lda _ | .str _
  | .irx | .out1 | .out2 | .out3 | .out4 | .out5 | .out6 | .out7
  | .inp1 | .inp2 | .inp3 | .inp4 | .inp5 | .inp6 | .inp7
  | .ret | .dis | .ldxa | .stxd | .adc | .sdb | .shrc | .smb
  | .sav | .mark | .req | .seq | .adci _ | .sdbi _ | .shlc | .smbi _
  | .glo _ | .ghi _ | .plo _ | .phi _ | .sep _ | .sex _
  | .ldx | .or | .and | .xor | .add | .sd | .shr | .sm
  | .ldi _ | .ori _ | .ani _ | .xri _ | .adi _ | .sdi _ | .shl | .smi _ => 2

/-- The end of a handler: `cycles <- cycles + cost(op)` (R80). -/
def complete (i : Instr) (s : State) : State := { s with cycles := s.cycles + cost i }

/-! ### The one exception (60_exceptions.md R235 to R244) -/

/-- TAKING THE DECODE FAULT (R235, R237, R243): the byte is recorded and the run ends; nothing is saved, nothing is
vectored to, no mode changes, no cycles are added. `R[P]` already points past the byte (R80).
There is no return from it: a later `run()` goes on after the byte, a `reset()` starts at 0 (R244; `enterRun` and
`resetCpu` in Machine/HostInterface.lean). -/
def takeDecodeFault (op : Byte) (s : State) : State := { s with fault := some op, running := false }

/-- One hexadecimal digit. -/
def hexDigit (n : Nibble) : Char := "0123456789ABCDEF".toList.getD n.toNat '0'

/-- What the fault carries to the caller of run(): the opcode's two-digit hex value (R236). -/
def faultText (op : Byte) : String := String.ofList [hexDigit (hiNibble op), hexDigit (loNibble op)]

end Sys2Proof.Machine
end

