-- ==== Sys2Proof/Machine/Operands.lean ====
section
/-! DEFINITION. Every operand form (42_alu.md R110, 43_load_store_register.md R155, 30_encoding.md R63, R64). A handler
runs after the fetch has moved `R[P]` past the opcode byte (40_execution_loop.md R81). -/

namespace Sys2Proof.Machine

/-- The data pointer `R[X]` (10_state.md R18). -/
def dataPtr (s : State) : Word := getReg s s.x

/-- The memory operand `M = MemRead(R[X], 1)`; `R[X]` is not changed (R110 a). -/
def memOperand (s : State) : Byte := readByte s (dataPtr s)

/-- Post-increment of `R[n]` (R155). -/
def stepUp (s : State) (n : Nibble) : State := setReg s n (getReg s n + 1)

/-- Post-decrement of `R[n]` (R155). -/
def stepDown (s : State) (n : Nibble) : State := setReg s n (getReg s n - 1)

/-- Passing over one operand byte: the immediate of `Imm()` (30_encoding.md R63). The byte itself is the field of the
instruction: it was fetched at `R[P]` with the opcode, and nothing has written memory since (log 6). -/
def consumeOperand (s : State) : State := advancePc s 1

/-- Load D through `R[n]`, then advance `R[n]` (R142, R144). -/
def loadAdvance (s : State) (n : Nibble) : State := stepUp (setD s (readByte s (getReg s n))) n

/-- Short branch (44_branch_skip.md R160): taken, the operand replaces the low byte of `R[P]`, which at this moment
points at the operand byte, so the page is the operand's (D3); not taken, `R[P]` passes over it. -/
def shortBranch (taken : Bool) (b : Byte) (s : State) : State :=
  if taken then setPc s (joinBytes (hiByte (pc s)) b) else advancePc s 1

/-- Long branch (44_branch_skip.md R161): taken, the target replaces `R[P]`; not taken, `R[P]` passes over both bytes. -/
def longBranch (taken : Bool) (target : Word) (s : State) : State :=
  if taken then setPc s target else advancePc s 2

/-- Long skip (44_branch_skip.md R162): `R[P]` passes over two bytes when the condition holds. -/
def longSkip (taken : Bool) (s : State) : State :=
  if taken then advancePc s 2 else s

/-- `RET` and `DIS` (45_control.md R202, R203): one byte through `R[X]`, the OLD X's register advances (D4), then X and
P are the byte's nibbles and IE is set as given. -/
def loadSelectors (ie : Bool) (s : State) : State :=
  let b := memOperand s
  let s := stepUp s s.x
  { s with x := hiNibble b, p := loNibble b, ie := ie }

/-- `OUT` (46_io.md R224): the memory byte at `R[X]` to the port register, then `R[X]` advances. -/
def sendToPort (i : Fin 7) (s : State) : State :=
  let s' := outPortWrite s i (memOperand s)
  stepUp s' s'.x

/-- `INP` (46_io.md R225): one sample of the port, to memory at `R[X]` (unless MP is set) and to D. -/
def readFromPort (i : Fin 7) (s : State) : State :=
  let v := s.inPort[i]
  setD (writeByte s (dataPtr s) v) v

end Sys2Proof.Machine
end

