-- ==== Sys2Proof/Machine/Flags.lean ====
section
/-! DEFINITION. The 8-bit adder and the shifts with the DF they produce (42_alu.md R110, R129 to R132), and the
predicates of branches and skips (44_branch_skip.md R163). DF is the only arithmetic flag (R133). -/

namespace Sys2Proof.Machine

/-- `Add8(a, b, c)` (R110 c): the low eight bits of the sum, and bit 8 as carry-out. -/
def add8 (a b : Byte) (c : Bool) : Byte × Bool :=
  let t := a.toNat + b.toNat + c.toNat
  (BitVec.ofNat 8 t, decide (0xFF < t))

/-- `SHR` and `SHRC` (R129, R130): `b` enters at bit 7, bit 0 leaves into DF. -/
def shiftRight (a : Byte) (b : Bool) : Byte × Bool :=
  (BitVec.ofBool b ++ a.extractLsb' 1 7, a.getLsbD 0)

/-- `SHL` and `SHLC` (R131, R132): `b` enters at bit 0, bit 7 leaves into DF. -/
def shiftLeft (a : Byte) (b : Bool) : Byte × Bool :=
  (a.extractLsb' 0 7 ++ BitVec.ofBool b, a.getLsbD 7)

/-- `D, DF <- result` (R110 d). -/
def setDandDF (s : State) (r : Byte × Bool) : State := { s with d := r.1, df := r.2 }

/-- The predicate table (R163). -/
inductive Cond where
  | always
  | never
  | q
  | z
  | df
  | ef (k : Fin 4)
  | nq
  | nz
  | nf
  | nef (k : Fin 4)
  | ie
  deriving DecidableEq, Repr

/-- When a predicate is true (R163). The tests on D read D itself: there is no zero flag. -/
def Cond.holds (c : Cond) (s : State) : Bool :=
  match c with
  | .always => true
  | .never => false
  | .q => s.q
  | .z => s.d == 0x00
  | .df => s.df
  | .ef k => s.ef[k]
  | .nq => !s.q
  | .nz => s.d != 0x00
  | .nf => !s.df
  | .nef k => !s.ef[k]
  | .ie => s.ie

end Sys2Proof.Machine
end

