-- ==== Sys2Proof/Machine/Arithmetic.lean ====
section
/-! DEFINITION. Addition and subtraction (42_alu.md R117 to R128): every form is the 8-bit adder of R110 with one operand
possibly complemented. -/

namespace Sys2Proof.Machine

/-- `ADD` (R117): D, DF <- D + M, M the memory operand. -/
def execAdd (s : State) : Host.Outcome State Fault Refusal :=
  .next (complete .add (setDandDF s (add8 s.d (memOperand s) false)))

/-- `ADI` (R118): D, DF <- D + M, M = Imm(). -/
def execAdi (imm : Byte) (s : State) : Host.Outcome State Fault Refusal :=
  .next (complete (.adi imm) (setDandDF (consumeOperand s) (add8 s.d imm false)))

/-- `ADC` (R119): D, DF <- D + M + DF, M the memory operand. -/
def execAdc (s : State) : Host.Outcome State Fault Refusal :=
  .next (complete .adc (setDandDF s (add8 s.d (memOperand s) s.df)))

/-- `ADCI` (R120): D, DF <- D + M + DF, M = Imm(). -/
def execAdci (imm : Byte) (s : State) : Host.Outcome State Fault Refusal :=
  .next (complete (.adci imm) (setDandDF (consumeOperand s) (add8 s.d imm s.df)))

/-- `SD` (R121): D, DF <- (~D) + M + 1, M the memory operand. -/
def execSd (s : State) : Host.Outcome State Fault Refusal :=
  .next (complete .sd (setDandDF s (add8 (~~~s.d) (memOperand s) true)))

/-- `SDI` (R122): D, DF <- (~D) + M + 1, M = Imm(). -/
def execSdi (imm : Byte) (s : State) : Host.Outcome State Fault Refusal :=
  .next (complete (.sdi imm) (setDandDF (consumeOperand s) (add8 (~~~s.d) imm true)))

/-- `SDB` (R123): D, DF <- (~D) + M + DF, M the memory operand. -/
def execSdb (s : State) : Host.Outcome State Fault Refusal :=
  .next (complete .sdb (setDandDF s (add8 (~~~s.d) (memOperand s) s.df)))

/-- `SDBI` (R124): D, DF <- (~D) + M + DF, M = Imm(). -/
def execSdbi (imm : Byte) (s : State) : Host.Outcome State Fault Refusal :=
  .next (complete (.sdbi imm) (setDandDF (consumeOperand s) (add8 (~~~s.d) imm s.df)))

/-- `SM` (R125): D, DF <- D + (~M) + 1, M the memory operand. -/
def execSm (s : State) : Host.Outcome State Fault Refusal :=
  .next (complete .sm (setDandDF s (add8 s.d (~~~memOperand s) true)))

/-- `SMI` (R126): D, DF <- D + (~M) + 1, M = Imm(). -/
def execSmi (imm : Byte) (s : State) : Host.Outcome State Fault Refusal :=
  .next (complete (.smi imm) (setDandDF (consumeOperand s) (add8 s.d (~~~imm) true)))

/-- `SMB` (R127): D, DF <- D + (~M) + DF, M the memory operand. -/
def execSmb (s : State) : Host.Outcome State Fault Refusal :=
  .next (complete .smb (setDandDF s (add8 s.d (~~~memOperand s) s.df)))

/-- `SMBI` (R128): D, DF <- D + (~M) + DF, M = Imm(). -/
def execSmbi (imm : Byte) (s : State) : Host.Outcome State Fault Refusal :=
  .next (complete (.smbi imm) (setDandDF (consumeOperand s) (add8 s.d (~~~imm) s.df)))

end Sys2Proof.Machine
end

