-- ==== Sys2Proof/Machine/Branch.lean ====
section
/-! DEFINITION. Short branches, long branches, skips and NOP (44_branch_skip.md R164 to R195). The operation is R160, R161 or
R162, the predicate is R163. -/

namespace Sys2Proof.Machine

/-- `BR` (R164): short branch always. -/
def execBr (addr : Byte) (s : State) : Host.Outcome State Fault Refusal :=
  .next (complete (.br addr) (shortBranch (Cond.holds .always s) addr s))

/-- `BQ` (R165): short branch if Q = 1. -/
def execBq (addr : Byte) (s : State) : Host.Outcome State Fault Refusal :=
  .next (complete (.bq addr) (shortBranch (Cond.holds .q s) addr s))

/-- `BZ` (R166): short branch if D = 0. -/
def execBz (addr : Byte) (s : State) : Host.Outcome State Fault Refusal :=
  .next (complete (.bz addr) (shortBranch (Cond.holds .z s) addr s))

/-- `BDF` (R167): short branch if DF = 1. -/
def execBdf (addr : Byte) (s : State) : Host.Outcome State Fault Refusal :=
  .next (complete (.bdf addr) (shortBranch (Cond.holds .df s) addr s))

/-- `B1` (R168): short branch if EF[1] is asserted. -/
def execB1 (addr : Byte) (s : State) : Host.Outcome State Fault Refusal :=
  .next (complete (.b1 addr) (shortBranch (Cond.holds (.ef 0) s) addr s))

/-- `B2` (R169): short branch if EF[2] is asserted. -/
def execB2 (addr : Byte) (s : State) : Host.Outcome State Fault Refusal :=
  .next (complete (.b2 addr) (shortBranch (Cond.holds (.ef 1) s) addr s))

/-- `B3` (R170): short branch if EF[3] is asserted. -/
def execB3 (addr : Byte) (s : State) : Host.Outcome State Fault Refusal :=
  .next (complete (.b3 addr) (shortBranch (Cond.holds (.ef 2) s) addr s))

/-- `B4` (R171): short branch if EF[4] is asserted. -/
def execB4 (addr : Byte) (s : State) : Host.Outcome State Fault Refusal :=
  .next (complete (.b4 addr) (shortBranch (Cond.holds (.ef 3) s) addr s))

/-- `SKP` (R172): short skip, always: the byte passed over is not read. -/
def execSkp (s : State) : Host.Outcome State Fault Refusal :=
  .next (complete .skp (advancePc s 1))

/-- `BNQ` (R173): short branch if Q = 0. -/
def execBnq (addr : Byte) (s : State) : Host.Outcome State Fault Refusal :=
  .next (complete (.bnq addr) (shortBranch (Cond.holds .nq s) addr s))

/-- `BNZ` (R174): short branch if D != 0. -/
def execBnz (addr : Byte) (s : State) : Host.Outcome State Fault Refusal :=
  .next (complete (.bnz addr) (shortBranch (Cond.holds .nz s) addr s))

/-- `BNF` (R175): short branch if DF = 0. -/
def execBnf (addr : Byte) (s : State) : Host.Outcome State Fault Refusal :=
  .next (complete (.bnf addr) (shortBranch (Cond.holds .nf s) addr s))

/-- `BN1` (R176): short branch if EF[1] is not asserted. -/
def execBn1 (addr : Byte) (s : State) : Host.Outcome State Fault Refusal :=
  .next (complete (.bn1 addr) (shortBranch (Cond.holds (.nef 0) s) addr s))

/-- `BN2` (R177): short branch if EF[2] is not asserted. -/
def execBn2 (addr : Byte) (s : State) : Host.Outcome State Fault Refusal :=
  .next (complete (.bn2 addr) (shortBranch (Cond.holds (.nef 1) s) addr s))

/-- `BN3` (R178): short branch if EF[3] is not asserted. -/
def execBn3 (addr : Byte) (s : State) : Host.Outcome State Fault Refusal :=
  .next (complete (.bn3 addr) (shortBranch (Cond.holds (.nef 2) s) addr s))

/-- `BN4` (R179): short branch if EF[4] is not asserted. -/
def execBn4 (addr : Byte) (s : State) : Host.Outcome State Fault Refusal :=
  .next (complete (.bn4 addr) (shortBranch (Cond.holds (.nef 3) s) addr s))

/-- `LBR` (R180): long branch always. -/
def execLbr (target : Word) (s : State) : Host.Outcome State Fault Refusal :=
  .next (complete (.lbr target) (longBranch (Cond.holds .always s) target s))

/-- `LBQ` (R181): long branch if Q = 1. -/
def execLbq (target : Word) (s : State) : Host.Outcome State Fault Refusal :=
  .next (complete (.lbq target) (longBranch (Cond.holds .q s) target s))

/-- `LBZ` (R182): long branch if D = 0. -/
def execLbz (target : Word) (s : State) : Host.Outcome State Fault Refusal :=
  .next (complete (.lbz target) (longBranch (Cond.holds .z s) target s))

/-- `LBDF` (R183): long branch if DF = 1. -/
def execLbdf (target : Word) (s : State) : Host.Outcome State Fault Refusal :=
  .next (complete (.lbdf target) (longBranch (Cond.holds .df s) target s))

/-- `NOP` (R184): nothing but its 3 cycles. -/
def execNop (s : State) : Host.Outcome State Fault Refusal :=
  .next (complete .nop s)

/-- `LSNQ` (R185): long skip if Q = 0. -/
def execLsnq (s : State) : Host.Outcome State Fault Refusal :=
  .next (complete .lsnq (longSkip (Cond.holds .nq s) s))

/-- `LSNZ` (R186): long skip if D != 0. -/
def execLsnz (s : State) : Host.Outcome State Fault Refusal :=
  .next (complete .lsnz (longSkip (Cond.holds .nz s) s))

/-- `LSNF` (R187): long skip if DF = 0. -/
def execLsnf (s : State) : Host.Outcome State Fault Refusal :=
  .next (complete .lsnf (longSkip (Cond.holds .nf s) s))

/-- `LSKP` (R188): long skip always. -/
def execLskp (s : State) : Host.Outcome State Fault Refusal :=
  .next (complete .lskp (longSkip (Cond.holds .always s) s))

/-- `LBNQ` (R189): long branch if Q = 0. -/
def execLbnq (target : Word) (s : State) : Host.Outcome State Fault Refusal :=
  .next (complete (.lbnq target) (longBranch (Cond.holds .nq s) target s))

/-- `LBNZ` (R190): long branch if D != 0. -/
def execLbnz (target : Word) (s : State) : Host.Outcome State Fault Refusal :=
  .next (complete (.lbnz target) (longBranch (Cond.holds .nz s) target s))

/-- `LBNF` (R191): long branch if DF = 0. -/
def execLbnf (target : Word) (s : State) : Host.Outcome State Fault Refusal :=
  .next (complete (.lbnf target) (longBranch (Cond.holds .nf s) target s))

/-- `LSIE` (R192): long skip if IE = 1. -/
def execLsie (s : State) : Host.Outcome State Fault Refusal :=
  .next (complete .lsie (longSkip (Cond.holds .ie s) s))

/-- `LSQ` (R193): long skip if Q = 1. -/
def execLsq (s : State) : Host.Outcome State Fault Refusal :=
  .next (complete .lsq (longSkip (Cond.holds .q s) s))

/-- `LSZ` (R194): long skip if D = 0. -/
def execLsz (s : State) : Host.Outcome State Fault Refusal :=
  .next (complete .lsz (longSkip (Cond.holds .z s) s))

/-- `LSDF` (R195): long skip if DF = 1. -/
def execLsdf (s : State) : Host.Outcome State Fault Refusal :=
  .next (complete .lsdf (longSkip (Cond.holds .df s) s))

end Sys2Proof.Machine
end

