-- ==== Sys2Proof/Machine/Control.lean ====
section
/-! DEFINITION. Control instructions (45_control.md R200 to R206), and the byte that has no handler (60_exceptions.md R235). -/

namespace Sys2Proof.Machine

/-- `MARK` (R204): T <- X ++ P, stored through R[2]; then X <- P and R[2] steps down, also when MP drops the store. -/
def savePair (s : State) : State :=
  let s := { s with t := joinNibbles s.x s.p }
  let s := writeByte s (getReg s 2) s.t
  let s := { s with x := s.p }
  stepDown s 2

/-- `SEP` (R200): P <- N; no register is changed. -/
def execSep (n : Nibble) (s : State) : Host.Outcome State Fault Refusal :=
  .next (complete (.sep n) { s with p := n })

/-- `SEX` (R201): X <- N. -/
def execSex (n : Nibble) (s : State) : Host.Outcome State Fault Refusal :=
  .next (complete (.sex n) { s with x := n })

/-- `RET` (R202): X, P from MemRead(R[X], 1), old R[X] advanced, IE <- 1. -/
def execRet (s : State) : Host.Outcome State Fault Refusal :=
  .next (complete .ret (loadSelectors true s))

/-- `DIS` (R203): X, P from MemRead(R[X], 1), old R[X] advanced, IE <- 0. -/
def execDis (s : State) : Host.Outcome State Fault Refusal :=
  .next (complete .dis (loadSelectors false s))

/-- `MARK` (R204): T <- X ++ P; MemWrite(R[2], 1, T); X <- P; R[2] <- R[2] - 1. -/
def execMark (s : State) : Host.Outcome State Fault Refusal :=
  .next (complete .mark (savePair s))

/-- `SAV` (R205): MemWrite(R[X], 1, T). -/
def execSav (s : State) : Host.Outcome State Fault Refusal :=
  .next (complete .sav (writeByte s (dataPtr s) s.t))

/-- `IDL` (R206): idle <- true. -/
def execIdl (s : State) : Host.Outcome State Fault Refusal :=
  .next (complete .idl { s with idle := true })

/-- Byte 68 (30_encoding.md R66; 60_exceptions.md R235, R237): no handler, so the decode fault is taken and no cost is
added (40_execution_loop.md R83). -/
def execUndefined (s : State) : Host.Outcome State Fault Refusal :=
  .next (takeDecodeFault 0x68 s)

end Sys2Proof.Machine
end

