-- ==== Sys2Proof/Machine/InputOutput.lean ====
section
/-! DEFINITION. Input and output (46_io.md R224 to R227). -/

namespace Sys2Proof.Machine

/-- `OUT 1` (R224): OutPortWrite(0, MemRead(R[X], 1)); R[X] <- R[X] + 1. -/
def execOut1 (s : State) : Host.Outcome State Fault Refusal :=
  .next (complete .out1 (sendToPort 0 s))

/-- `OUT 2` (R224): OutPortWrite(1, MemRead(R[X], 1)); R[X] <- R[X] + 1. -/
def execOut2 (s : State) : Host.Outcome State Fault Refusal :=
  .next (complete .out2 (sendToPort 1 s))

/-- `OUT 3` (R224): OutPortWrite(2, MemRead(R[X], 1)); R[X] <- R[X] + 1. -/
def execOut3 (s : State) : Host.Outcome State Fault Refusal :=
  .next (complete .out3 (sendToPort 2 s))

/-- `OUT 4` (R224): OutPortWrite(3, MemRead(R[X], 1)); R[X] <- R[X] + 1. -/
def execOut4 (s : State) : Host.Outcome State Fault Refusal :=
  .next (complete .out4 (sendToPort 3 s))

/-- `OUT 5` (R224): OutPortWrite(4, MemRead(R[X], 1)); R[X] <- R[X] + 1. -/
def execOut5 (s : State) : Host.Outcome State Fault Refusal :=
  .next (complete .out5 (sendToPort 4 s))

/-- `OUT 6` (R224): OutPortWrite(5, MemRead(R[X], 1)); R[X] <- R[X] + 1. -/
def execOut6 (s : State) : Host.Outcome State Fault Refusal :=
  .next (complete .out6 (sendToPort 5 s))

/-- `OUT 7` (R224): OutPortWrite(6, MemRead(R[X], 1)); R[X] <- R[X] + 1. -/
def execOut7 (s : State) : Host.Outcome State Fault Refusal :=
  .next (complete .out7 (sendToPort 6 s))

/-- `INP 1` (R225): v <- InPort[0]; MemWrite(R[X], 1, v); D <- v. -/
def execInp1 (s : State) : Host.Outcome State Fault Refusal :=
  .next (complete .inp1 (readFromPort 0 s))

/-- `INP 2` (R225): v <- InPort[1]; MemWrite(R[X], 1, v); D <- v. -/
def execInp2 (s : State) : Host.Outcome State Fault Refusal :=
  .next (complete .inp2 (readFromPort 1 s))

/-- `INP 3` (R225): v <- InPort[2]; MemWrite(R[X], 1, v); D <- v. -/
def execInp3 (s : State) : Host.Outcome State Fault Refusal :=
  .next (complete .inp3 (readFromPort 2 s))

/-- `INP 4` (R225): v <- InPort[3]; MemWrite(R[X], 1, v); D <- v. -/
def execInp4 (s : State) : Host.Outcome State Fault Refusal :=
  .next (complete .inp4 (readFromPort 3 s))

/-- `INP 5` (R225): v <- InPort[4]; MemWrite(R[X], 1, v); D <- v. -/
def execInp5 (s : State) : Host.Outcome State Fault Refusal :=
  .next (complete .inp5 (readFromPort 4 s))

/-- `INP 6` (R225): v <- InPort[5]; MemWrite(R[X], 1, v); D <- v. -/
def execInp6 (s : State) : Host.Outcome State Fault Refusal :=
  .next (complete .inp6 (readFromPort 5 s))

/-- `INP 7` (R225): v <- InPort[6]; MemWrite(R[X], 1, v); D <- v. -/
def execInp7 (s : State) : Host.Outcome State Fault Refusal :=
  .next (complete .inp7 (readFromPort 6 s))

/-- `REQ` (R227): QWrite(false). -/
def execReq (s : State) : Host.Outcome State Fault Refusal :=
  .next (complete .req (qWrite s false))

/-- `SEQ` (R226): QWrite(true). -/
def execSeq (s : State) : Host.Outcome State Fault Refusal :=
  .next (complete .seq (qWrite s true))

end Sys2Proof.Machine
end

