-- ==== Sys2Proof/Machine/LoadStore.lean ====
section
/-! DEFINITION. Loads and stores (43_load_store_register.md R141 to R147). -/

namespace Sys2Proof.Machine

/-- `LDN` (R141): D <- MemRead(R[N], 1). -/
def execLdn (n : Nibble) (s : State) : Host.Outcome State Fault Refusal :=
  .next (complete (.ldn n) (setD s (readByte s (getReg s n))))

/-- `LDA` (R142): D <- MemRead(R[N], 1); R[N] <- R[N] + 1. -/
def execLda (n : Nibble) (s : State) : Host.Outcome State Fault Refusal :=
  .next (complete (.lda n) (loadAdvance s n))

/-- `LDX` (R143): D <- MemRead(R[X], 1). -/
def execLdx (s : State) : Host.Outcome State Fault Refusal :=
  .next (complete .ldx (setD s (memOperand s)))

/-- `LDXA` (R144): D <- MemRead(R[X], 1); R[X] <- R[X] + 1. -/
def execLdxa (s : State) : Host.Outcome State Fault Refusal :=
  .next (complete .ldxa (loadAdvance s s.x))

/-- `LDI` (R145): D <- Imm(). -/
def execLdi (imm : Byte) (s : State) : Host.Outcome State Fault Refusal :=
  .next (complete (.ldi imm) (setD (consumeOperand s) imm))

/-- `STR` (R146): MemWrite(R[N], 1, D). -/
def execStr (n : Nibble) (s : State) : Host.Outcome State Fault Refusal :=
  .next (complete (.str n) (writeByte s (getReg s n) s.d))

/-- `STXD` (R147): MemWrite(R[X], 1, D); R[X] <- R[X] - 1, also when MP drops the write. -/
def execStxd (s : State) : Host.Outcome State Fault Refusal :=
  .next (complete .stxd (stepDown (writeByte s (dataPtr s) s.d) s.x))

end Sys2Proof.Machine
end

