-- ==== Sys2Proof/Machine/Logic.lean ====
section
/-! DEFINITION. Logic (42_alu.md R111 to R116): bitwise on D, no DF effect. -/

namespace Sys2Proof.Machine

/-- `OR` (R111): D <- D | M; DF unchanged. -/
def execOr (s : State) : Host.Outcome State Fault Refusal :=
  .next (complete .or (setD s (s.d ||| memOperand s)))

/-- `AND` (R112): D <- D & M; DF unchanged. -/
def execAnd (s : State) : Host.Outcome State Fault Refusal :=
  .next (complete .and (setD s (s.d &&& memOperand s)))

/-- `XOR` (R113): D <- D ^ M; DF unchanged. -/
def execXor (s : State) : Host.Outcome State Fault Refusal :=
  .next (complete .xor (setD s (s.d ^^^ memOperand s)))

/-- `ORI` (R114): D <- D | Imm(); DF unchanged. -/
def execOri (imm : Byte) (s : State) : Host.Outcome State Fault Refusal :=
  .next (complete (.ori imm) (setD (consumeOperand s) (s.d ||| imm)))

/-- `ANI` (R115): D <- D & Imm(); DF unchanged. -/
def execAni (imm : Byte) (s : State) : Host.Outcome State Fault Refusal :=
  .next (complete (.ani imm) (setD (consumeOperand s) (s.d &&& imm)))

/-- `XRI` (R116): D <- D ^ Imm(); DF unchanged. -/
def execXri (imm : Byte) (s : State) : Host.Outcome State Fault Refusal :=
  .next (complete (.xri imm) (setD (consumeOperand s) (s.d ^^^ imm)))

end Sys2Proof.Machine
end

