-- ==== Sys2Proof/Machine/RegisterOps.lean ====
section
/-! DEFINITION. Register steps and register-byte transfers (43_load_store_register.md R148 to R154). -/

namespace Sys2Proof.Machine

/-- `IRX` (R148): R[X] <- R[X] + 1. -/
def execIrx (s : State) : Host.Outcome State Fault Refusal :=
  .next (complete .irx (stepUp s s.x))

/-- `INC` (R149): R[N] <- R[N] + 1. -/
def execInc (n : Nibble) (s : State) : Host.Outcome State Fault Refusal :=
  .next (complete (.inc n) (stepUp s n))

/-- `DEC` (R150): R[N] <- R[N] - 1. -/
def execDec (n : Nibble) (s : State) : Host.Outcome State Fault Refusal :=
  .next (complete (.dec n) (stepDown s n))

/-- `GLO` (R151): D <- R[N][7:0]. -/
def execGlo (n : Nibble) (s : State) : Host.Outcome State Fault Refusal :=
  .next (complete (.glo n) (setD s (loByte (getReg s n))))

/-- `GHI` (R152): D <- R[N][15:8]. -/
def execGhi (n : Nibble) (s : State) : Host.Outcome State Fault Refusal :=
  .next (complete (.ghi n) (setD s (hiByte (getReg s n))))

/-- `PLO` (R153): R[N] <- R[N][15:8] ++ D. -/
def execPlo (n : Nibble) (s : State) : Host.Outcome State Fault Refusal :=
  .next (complete (.plo n) (setReg s n (joinBytes (hiByte (getReg s n)) s.d)))

/-- `PHI` (R154): R[N] <- D ++ R[N][7:0]. -/
def execPhi (n : Nibble) (s : State) : Host.Outcome State Fault Refusal :=
  .next (complete (.phi n) (setReg s n (joinBytes s.d (loByte (getReg s n)))))

end Sys2Proof.Machine
end

