-- ==== Sys2Proof/Machine/Shift.lean ====
section
/-! DEFINITION. Shifts (42_alu.md R129 to R132). -/

namespace Sys2Proof.Machine

/-- `SHR` (R129): DF <- D[0]; D <- 0 ++ D[7:1]. -/
def execShr (s : State) : Host.Outcome State Fault Refusal :=
  .next (complete .shr (setDandDF s (shiftRight s.d false)))

/-- `SHRC` (R130): DF <- D[0]; D <- old DF ++ D[7:1]. -/
def execShrc (s : State) : Host.Outcome State Fault Refusal :=
  .next (complete .shrc (setDandDF s (shiftRight s.d s.df)))

/-- `SHL` (R131): DF <- D[7]; D <- D[6:0] ++ 0. -/
def execShl (s : State) : Host.Outcome State Fault Refusal :=
  .next (complete .shl (setDandDF s (shiftLeft s.d false)))

/-- `SHLC` (R132): DF <- D[7]; D <- D[6:0] ++ old DF. -/
def execShlc (s : State) : Host.Outcome State Fault Refusal :=
  .next (complete .shlc (setDandDF s (shiftLeft s.d s.df)))

end Sys2Proof.Machine
end

