-- ==== Sys2Proof/Machine/Dispatch.lean ====
section
/-! DEFINITION. The dispatch table (30_encoding.md R60): one arm per constructor of `Instr`, each one call of its meaning. -/

namespace Sys2Proof.Machine

def exec (i : Instr) (s : State) : Host.Outcome State Fault Refusal :=
  match i with
  | .idl => Sys2Proof.Machine.execIdl s
  | .ldn n => Sys2Proof.Machine.execLdn n s
  | .inc n => Sys2Proof.Machine.execInc n s
  | .dec n => Sys2Proof.Machine.execDec n s
  | .br addr => Sys2Proof.Machine.execBr addr s
  | .bq addr => Sys2Proof.Machine.execBq addr s
  | .bz addr => Sys2Proof.Machine.execBz addr s
  | .bdf addr => Sys2Proof.Machine.execBdf addr s
  | .b1 addr => Sys2Proof.Machine.execB1 addr s
  | .b2 addr => Sys2Proof.Machine.execB2 addr s
  | .b3 addr => Sys2Proof.Machine.execB3 addr s
  | .b4 addr => Sys2Proof.Machine.execB4 addr s
  | .skp => Sys2Proof.Machine.execSkp s
  | .bnq addr => Sys2Proof.Machine.execBnq addr s
  | .bnz addr => Sys2Proof.Machine.execBnz addr s
  | .bnf addr => Sys2Proof.Machine.execBnf addr s
  | .bn1 addr => Sys2Proof.Machine.execBn1 addr s
  | .bn2 addr => Sys2Proof.Machine.execBn2 addr s
  | .bn3 addr => Sys2Proof.Machine.execBn3 addr s
  | .bn4 addr => Sys2Proof.Machine.execBn4 addr s
  | .lda n => Sys2Proof.Machine.execLda n s
  | .str n => Sys2Proof.Machine.execStr n s
  | .irx => Sys2Proof.Machine.execIrx s
  | .out1 => Sys2Proof.Machine.execOut1 s
  | .out2 => Sys2Proof.Machine.execOut2 s
  | .out3 => Sys2Proof.Machine.execOut3 s
  | .out4 => Sys2Proof.Machine.execOut4 s
  | .out5 => Sys2Proof.Machine.execOut5 s
  | .out6 => Sys2Proof.Machine.execOut6 s
  | .out7 => Sys2Proof.Machine.execOut7 s
  | .inp1 => Sys2Proof.Machine.execInp1 s
  | .inp2 => Sys2Proof.Machine.execInp2 s
  | .inp3 => Sys2Proof.Machine.execInp3 s
  | .inp4 => Sys2Proof.Machine.execInp4 s
  | .inp5 => Sys2Proof.Machine.execInp5 s
  | .inp6 => Sys2Proof.Machine.execInp6 s
  | .inp7 => Sys2Proof.Machine.execInp7 s
  | .ret => Sys2Proof.Machine.execRet s
  | .dis => Sys2Proof.Machine.execDis s
  | .ldxa => Sys2Proof.Machine.execLdxa s
  | .stxd => Sys2Proof.Machine.execStxd s
  | .adc => Sys2Proof.Machine.execAdc s
  | .sdb => Sys2Proof.Machine.execSdb s
  | .shrc => Sys2Proof.Machine.execShrc s
  | .smb => Sys2Proof.Machine.execSmb s
  | .sav => Sys2Proof.Machine.execSav s
  | .mark => Sys2Proof.Machine.execMark s
  | .req => Sys2Proof.Machine.execReq s
  | .seq => Sys2Proof.Machine.execSeq s
  | .adci imm => Sys2Proof.Machine.execAdci imm s
  | .sdbi imm => Sys2Proof.Machine.execSdbi imm s
  | .shlc => Sys2Proof.Machine.execShlc s
  | .smbi imm => Sys2Proof.Machine.execSmbi imm s
  | .glo n => Sys2Proof.Machine.execGlo n s
  | .ghi n => Sys2Proof.Machine.execGhi n s
  | .plo n => Sys2Proof.Machine.execPlo n s
  | .phi n => Sys2Proof.Machine.execPhi n s
  | .lbr target => Sys2Proof.Machine.execLbr target s
  | .lbq target => Sys2Proof.Machine.execLbq target s
  | .lbz target => Sys2Proof.Machine.execLbz target s
  | .lbdf target => Sys2Proof.Machine.execLbdf target s
  | .nop => Sys2Proof.Machine.execNop s
  | .lsnq => Sys2Proof.Machine.execLsnq s
  | .lsnz => Sys2Proof.Machine.execLsnz s
  | .lsnf => Sys2Proof.Machine.execLsnf s
  | .lskp => Sys2Proof.Machine.execLskp s
  | .lbnq target => Sys2Proof.Machine.execLbnq target s
  | .lbnz target => Sys2Proof.Machine.execLbnz target s
  | .lbnf target => Sys2Proof.Machine.execLbnf target s
  | .lsie => Sys2Proof.Machine.execLsie s
  | .lsq => Sys2Proof.Machine.execLsq s
  | .lsz => Sys2Proof.Machine.execLsz s
  | .lsdf => Sys2Proof.Machine.execLsdf s
  | .sep n => Sys2Proof.Machine.execSep n s
  | .sex n => Sys2Proof.Machine.execSex n s
  | .ldx => Sys2Proof.Machine.execLdx s
  | .or => Sys2Proof.Machine.execOr s
  | .and => Sys2Proof.Machine.execAnd s
  | .xor => Sys2Proof.Machine.execXor s
  | .add => Sys2Proof.Machine.execAdd s
  | .sd => Sys2Proof.Machine.execSd s
  | .shr => Sys2Proof.Machine.execShr s
  | .sm => Sys2Proof.Machine.execSm s
  | .ldi imm => Sys2Proof.Machine.execLdi imm s
  | .ori imm => Sys2Proof.Machine.execOri imm s
  | .ani imm => Sys2Proof.Machine.execAni imm s
  | .xri imm => Sys2Proof.Machine.execXri imm s
  | .adi imm => Sys2Proof.Machine.execAdi imm s
  | .sdi imm => Sys2Proof.Machine.execSdi imm s
  | .shl => Sys2Proof.Machine.execShl s
  | .smi imm => Sys2Proof.Machine.execSmi imm s
  | .undefined => Sys2Proof.Machine.execUndefined s

end Sys2Proof.Machine
end

