-- ==== Sys2Proof/Machine/Pacing.lean ====
section
/-! DEFINITION. The real-time pacing scheduler (41_pacing_scheduler.md R100 to R108). It decides only when the next
instruction starts and changes no architectural value (R107).

Whether the clock is known is the argument `known`: a step whose inputs are written down (log 3) reads the clock field,
which only `tick` moves; past the known inputs the clock is a free value that is assumed to advance (log 5). -/

namespace Sys2Proof.Machine

/-- `PaceInit()` (R100), at entry of every run that is not single-step. -/
def paceInit (s : State) : State := { s with pace := { count := 0, budget := 0, lastMs := s.clockMs } }

/-- The cost of an executed instruction is counted (R102, first line). -/
def paceCharge (c : Nat) (s : State) : State := { s with pace := { s.pace with count := s.pace.count + c } }

/-- "When that count exceeds a target cycle budget": the comparison is strict (R102). -/
def checkpointDue (s : State) : Bool := decide (s.pace.budget < s.pace.count)

/-- The wait loop's condition (R102, R106): the known clock has not moved since the last checkpoint and no stop is
requested. One step spent so is one `ShortWait()` (R103). -/
def paceWaits (known : Bool) (s : State) : Bool :=
  known && checkpointDue s && decide (s.clockMs = s.pace.lastMs) && !s.stopReq

/-- The sample that ends the wait loop. Known clock: what it reads. Free clock: any value not below the last reading,
and above the last checkpoint's unless a stop ends the wait (R102, R106). -/
def clockSample (known : Bool) (s : State) : Nat :=
  if known then s.clockMs
  else if s.stopReq then s.clockMs + Config.freeClock s.clockReads
  else max (s.clockMs + Config.freeClock s.clockReads) (s.pace.lastMs + 1)

/-- The checkpoint, if one is due (R102): the spent budget is taken from the count (the overshoot is kept, D9), the next
budget is 224 times the milliseconds found to have passed, and the sample is the new checkpoint's time. -/
def paceCheckpoint (known : Bool) (s : State) : State :=
  let due := checkpointDue s
  let now := clockSample known s
  { s with
    pace := {
      count := if due then s.pace.count - s.pace.budget else s.pace.count
      budget := if due then Config.cyclesPerMs * (now - s.pace.lastMs) else s.pace.budget
      lastMs := if due then now else s.pace.lastMs }
    clockMs := if due then now else s.clockMs
    clockReads := if due && !known then s.clockReads + 1 else s.clockReads }

end Sys2Proof.Machine
end

