-- ==== Sys2Proof/Machine/HostInterface.lean ====
section
/-! DEFINITION. The host's operations (60_exceptions.md R252 to R255), when the contract allows them (R253), and the
flat memory image (70_reset_and_hazards.md R268). -/

namespace Sys2Proof.Machine

/-! ### Operations that change state -/

/-- `reset()` (70_reset_and_hazards.md R260). What it does not name it leaves untouched (R261). -/
def resetCpu (s : State) : State :=
  qWrite { setReg s 0 0x0000 with ie := true, x := 0, p := 0, cycles := 0, idle := false } false

/-- The entry of `run()` (40_execution_loop.md R85): the stop flag is cleared, the single-step toggle is read once
(R86), and pacing starts afresh unless the run is single-step (41_pacing_scheduler.md R100, R108). -/
def enterRun (s : State) : State :=
  let s := { s with stopReq := false, running := true, stepRun := s.stepMode }
  if s.stepRun then s else paceInit s

/-- `setBytes` (20_memory.md R43): nothing while MP is set; bytes beyond the end of memory are discarded. -/
def writeBytes (s : State) (offset : Nat) (bytes : List Byte) : State :=
  if s.mp then s else { s with mem := Memory.writeAll s.mem offset bytes }

/-- `registerObserver` (46_io.md R223): the second registration replaces the first; no event is made or replayed. -/
def installObserver (s : State) (callbacks : Nat) : State :=
  { s with observer := some { callbacks := callbacks, since := s.events.length } }

/-- An argument inside `0 .. n-1` (60_exceptions.md R255). -/
def asIndex (n : Nat) (i : Int) : Option (Fin n) :=
  if h : i.toNat < n then (if 0 ≤ i then some ⟨i.toNat, h⟩ else none) else none

/-- What the host may do while a run is in progress (60_exceptions.md R253). -/
def allowedDuringRun : HostCall → Bool
  | .stop => true
  | .setSingleStep _ => true
  | .setExternalFlag _ _ => true
  | .setInPort _ _ => true
  | .tick _ => true
  | .reset => false
  | .run => false
  | .setCycleCap _ => false
  | .setByte _ _ => false
  | .setBytes _ _ => false
  | .setWriteProtect _ => false
  | .setOutPort _ _ => false
  | .setQ _ => false
  | .registerObserver _ => false

/-- The effect of a host operation that the contract allows (60_exceptions.md R252); none for an argument out of range. -/
def hostEffect (c : HostCall) (s : State) : Option State :=
  match c with
  | .reset => some (resetCpu s)
  | .run => some (enterRun s)
  | .stop => some { s with stopReq := true }
  | .setSingleStep on => some { s with stepMode := on }
  | .setCycleCap cap => some { s with cycleCap := cap }
  | .setExternalFlag i b => (asIndex 4 i).map fun (k : Fin 4) => { s with ef := s.ef.set k b }
  | .setByte a v => (asIndex Config.memSize a).map fun (k : Fin Config.memSize) => writeByte s (BitVec.ofNat 16 k) v
  | .setBytes o bs => (asIndex Config.memSize o).map fun (k : Fin Config.memSize) => writeBytes s k bs
  | .setWriteProtect on => some { s with mp := on }
  | .setInPort i v => (asIndex 7 i).map fun (k : Fin 7) => { s with inPort := s.inPort.set k v }
  | .setOutPort i v => (asIndex 7 i).map fun (k : Fin 7) => outPortWrite s k v
  | .setQ b => some (qWrite s b)
  | .registerObserver o => some (installObserver s o)
  | .tick ms => some { s with clockMs := s.clockMs + ms }

/-- One host operation: refused where R253 forbids it or R255 puts its argument outside the domain. -/
def hostCall (c : HostCall) (s : State) : Except Refusal State :=
  if s.running && !allowedDuringRun c then .error (.hostCallDuringRun c)
  else
    match hostEffect c s with
    | some s' => .ok s'
    | none => .error (.argumentOutOfRange c)

/-- The host's operations at one instruction boundary, in order; a refused one refuses the step. -/
def hostCalls (cs : List HostCall) (s : State) : Except Refusal State :=
  match cs with
  | [] => .ok s
  | c :: rest =>
    match hostCall c s with
    | .ok s' => hostCalls rest s'
    | .error r => .error r

/-! ### Operations that only read -/

/-- What a host read returns. -/
inductive HostAnswer where
  | bool (b : Bool)
  | byte (v : Byte)
  | signed (v : Int)
  | nibble (n : Nibble)
  | word (w : Word)
  | nat (n : Nat)
  deriving DecidableEq, Repr

/-- The value a host read returns (60_exceptions.md R252); none for an argument out of range (R255). -/
def hostRead (q : HostQuery) (s : State) : Option HostAnswer :=
  match q with
  | .isStop => some (.bool s.stopReq)
  | .isIdle => some (.bool s.idle)
  | .getD => some (.byte s.d)
  | .getDF => some (.bool s.df)
  | .getX => some (.nibble s.x)
  | .getP => some (.nibble s.p)
  | .getIE => some (.bool s.ie)
  | .getT => some (.byte s.t)
  | .getR i => (asIndex 16 i).map fun (k : Fin 16) => .word s.regs[k]
  | .getCycles => some (.nat s.cycles)
  | .getByte a => (asIndex Config.memSize a).map fun (k : Fin Config.memSize) => .signed (readByte s (BitVec.ofNat 16 k)).toInt
  | .getUnsignedByte a => (asIndex Config.memSize a).map fun (k : Fin Config.memSize) => .byte (readByte s (BitVec.ofNat 16 k))
  | .isWriteProtected => some (.bool s.mp)
  | .getInPort i => (asIndex 7 i).map fun (k : Fin 7) => .byte s.inPort[k]
  | .getOutPort i => (asIndex 7 i).map fun (k : Fin 7) => .byte s.outPort[k]
  | .isQOn => some (.bool s.q)

/-- `isStop()` and `isIdle()` may be asked at any time, the other reads only while no run is in progress (R253). -/
def readAllowedDuringRun : HostQuery → Bool
  | .isStop => true
  | .isIdle => true
  | .getD => false
  | .getDF => false
  | .getX => false
  | .getP => false
  | .getIE => false
  | .getT => false
  | .getR _ => false
  | .getCycles => false
  | .getByte _ => false
  | .getUnsignedByte _ => false
  | .isWriteProtected => false
  | .getInPort _ => false
  | .getOutPort _ => false
  | .isQOn => false

/-- One host read. -/
def hostQuery (q : HostQuery) (s : State) : Except Refusal HostAnswer :=
  if s.running && !readAllowedDuringRun q then .error (.readDuringRun q)
  else
    match hostRead q s with
    | some v => .ok v
    | none => .error (.readOutOfRange q)

/-! ### The flat memory image -/

/-- The whole addressable memory as bytes, address 0 first (R268). It is loaded by `HostCall.setBytes 0 image`. -/
def memoryImage (s : State) : List Byte :=
  (List.range Config.memSize).map fun a => Memory.read s.mem a

/-- The saved image without the zero bytes after the last byte that is not zero (R268). -/
def trimmedImage (s : State) : List Byte :=
  ((memoryImage s).reverse.dropWhile (· == 0)).reverse

end Sys2Proof.Machine
end

