-- ==== Sys2Proof/Machine/RunLoop.lean ====
section
/-! DEFINITION. One instruction (40_execution_loop.md R80), the run loop around it (R85 to R91), and the run-state
(R90). -/

namespace Sys2Proof.Machine

/-- The instruction at `R[P]`: the opcode byte and the two bytes after it, each at the then-current address, which
wraps (R80; 20_memory.md R48). Bytes that the instruction does not have are not looked at by the decoder. -/
def fetchInstr (s : State) : Instr :=
  decodeOp (readByte s (pc s)) (readByte s (pc s + 1)) (readByte s (pc s + 2))

/-- Bytes stored at rising addresses from `a`, wrapping, whatever the write-protect latch says. -/
def placeBytes (m : Memory) (a : Word) (bytes : List Byte) : Memory :=
  match bytes with
  | [] => m
  | b :: bs => placeBytes (Memory.write m a.toNat b) (a + 1) bs

/-- `step()` of R80: fetch, increment `R[P]`, one handler. -/
def runInstr (s : State) : Host.Outcome State Fault Refusal :=
  exec (fetchInstr s) (advancePc s 1)

/-- `CapReached()` (R87): the comparison is strict and with the absolute counter. -/
def capReached (s : State) : Bool :=
  match s.cycleCap with
  | none => false
  | some cap => decide (cap < s.cycles)

/-- The loop of R85 ends before the next instruction. -/
def loopEnds (s : State) : Bool := s.idle || s.stopReq || capReached s

/-- `running <- false`. -/
def endRun (s : State) : State := { s with running := false }

/-- After a handler in the loop: its cost is charged to the scheduler (R85, R102), unless the decode fault has ended the
run: the loop is then abandoned at once. -/
def afterInstr (i : Instr) (s : State) : State :=
  if s.running then paceCharge (cost i) s else s

/-- One turn of the loop: the three conditions, then one instruction (R85). -/
def loopTurn (s : State) : Host.Outcome State Fault Refusal :=
  if loopEnds s then .next (endRun s)
  else
    match runInstr s with
    | .next s' => .next (afterInstr (fetchInstr s) s')
    | .fault r => .fault r
    | .refused r => .refused r

/-- A single-step run (R86): one instruction unless idle, and the run is over. No pacing, no cap, no stop flag. -/
def singleStep (s : State) : Host.Outcome State Fault Refusal :=
  if s.idle then .next (endRun s)
  else
    match runInstr s with
    | .next s' => .next (endRun s')
    | .fault r => .fault r
    | .refused r => .refused r

/-- What the CPU does at its turn. No run in progress: nothing (R90, R251). A single-step run: its one instruction.
Otherwise first the scheduler's part of the previous instruction (R85 calls `Pace` between an instruction and the loop
test; log 4), waiting or passing its checkpoint, then one turn of the loop. -/
def cpuTurn (known : Bool) (s : State) : Host.Outcome State Fault Refusal :=
  if !s.running then .next s
  else if s.stepRun then singleStep s
  else if paceWaits known s then .next s
  else loopTurn (paceCheckpoint known s)

/-- The run-state (R90). -/
inductive RunState where
  | stopped
  | running
  | idle
  deriving DecidableEq, Repr

/-- Running iff `running`; else Idle iff `idle`; else Stopped (R90). -/
def runState (s : State) : RunState :=
  if s.running then .running else if s.idle then .idle else .stopped

end Sys2Proof.Machine
end

