-- ==== Sys2Proof/Machine/Step.lean ====
section
/-! DEFINITION. The step of the whole machine, host and CPU, and the host's way to place one instruction. -/

namespace Sys2Proof.Machine

/-- One step: the host's calls that fall at this instruction boundary (60_exceptions.md R253), then the CPU's turn.
With inputs written down the wall clock is known, past them it is free (log 5). -/
def step (s : State) : Host.Outcome State Fault Refusal :=
  match s.inputs with
  | [] => cpuTurn false s
  | calls :: rest =>
    match hostCalls calls { s with inputs := rest } with
    | .ok s' => cpuTurn true s'
    | .error r => .refused r

/-- `s` with one instruction stored at `R[P]`, and with nothing pending that would keep the very next step from running
it: the host's next call is `run()` unless a run is in progress, and no idle flag, stop request or exceeded cap stands
in the way (log 3). In `State.reset` only memory changes. -/
def State.withFetchWord (s : State) (nbits w : Nat) : State :=
  { s with
    mem := placeBytes s.mem (pc s) (tableBytes nbits w)
    inputs := if s.running then [] else [[.run]]
    idle := false
    stopReq := if s.running then false else s.stopReq
    cycleCap := if capReached s then none else s.cycleCap }

end Sys2Proof.Machine
end

