-- ==== Sys2Proof/Safety.lean ====
section
/-! DEFINITION. What claims about the machine are stated in: the invariants of a good state, which states count as
architecturally equal, and small vocabulary for statements about several instructions. -/

namespace Sys2Proof.Machine

/-! ### Invariants -/

/-- Memory is in its canonical form. -/
def MemoryCanonical (s : State) : Prop := s.mem.wf = true

/-- The values that an event trace records for output port `i`, oldest first. -/
def portHistory (i : Fin 7) (es : List PortEvent) : List Byte :=
  es.filterMap fun e => match e with
    | .portChanged j v => if j = i then some v else none
    | .qChanged _ => none

/-- The values that an event trace records for the Q latch, oldest first. -/
def qHistory (es : List PortEvent) : List Bool :=
  es.filterMap fun e => match e with
    | .portChanged _ _ => none
    | .qChanged b => some b

/-- A history of recorded values is edge-triggered and ends in the current value: no value is followed by itself, and
the last one recorded is what the register holds now (46_io.md R222 b, e; 10_state.md R29). -/
def EdgeHistory {α : Type} (history : List α) (now : α) : Prop :=
  List.IsChain (fun a b => a ≠ b) history ∧ ∀ v, history.getLast? = some v → v = now

/-- The event trace tells of every port and of Q exactly the changes. -/
def TraceIsEdgeTriggered (s : State) : Prop :=
  (∀ i : Fin 7, EdgeHistory (portHistory i s.events) s.outPort[i]) ∧ EdgeHistory (qHistory s.events) s.q

/-! ### The scheduler's variables set apart -/

/-- Equal in everything but the pacing scheduler's variables and the wall clock (41_pacing_scheduler.md R107). -/
def SameArchitecture (s t : State) : Prop :=
  t = { s with pace := t.pace, clockMs := t.clockMs, clockReads := t.clockReads }

/-- Equal in everything the host owns and no instruction writes (45_control.md R208; 10_state.md R20, R24, R26, R28, R29;
20_memory.md R44; 41_pacing_scheduler.md R100). -/
def SameHostSide (s t : State) : Prop :=
  t.ef = s.ef ∧ t.stopReq = s.stopReq ∧ t.stepMode = s.stepMode ∧ t.stepRun = s.stepRun ∧ t.cycleCap = s.cycleCap ∧
    t.mp = s.mp ∧ t.inPort = s.inPort ∧ t.observer = s.observer ∧ t.pace = s.pace ∧ t.clockMs = s.clockMs ∧
    t.clockReads = s.clockReads ∧ t.inputs = s.inputs

/-! ### What control transfers and register writes do, as arithmetic on addresses -/

/-- Of the general registers, `R[n]` holds `v` and the other fifteen are unchanged. -/
def OneRegister (s t : State) (n : Nibble) (v : Word) : Prop :=
  ∀ m, getReg t m = if m = n then v else getReg s m

/-- A short branch (44_branch_skip.md R160), 2 cycles: taken, the page of `R[P]` and the operand byte; not taken, past
the operand byte. Nothing but `R[P]` and the cycle counter changes. -/
def ShortBranchEffect (taken : Prop) (b : Byte) (s t : State) : Prop :=
  (taken → (getReg t s.p).toNat = 256 * ((getReg s s.p).toNat / 256) + b.toNat) ∧
    (¬taken → (getReg t s.p).toNat = ((getReg s s.p).toNat + 1) % 65536) ∧
    (∀ m, m ≠ s.p → getReg t m = getReg s m) ∧ t = { s with regs := t.regs, cycles := s.cycles + 2 }

/-- A long branch (44_branch_skip.md R161), 3 cycles: taken, the target; not taken, past the two operand bytes. Nothing
but `R[P]` and the cycle counter changes. -/
def LongBranchEffect (taken : Prop) (target : Word) (s t : State) : Prop :=
  (taken → getReg t s.p = target) ∧
    (¬taken → (getReg t s.p).toNat = ((getReg s s.p).toNat + 2) % 65536) ∧
    (∀ m, m ≠ s.p → getReg t m = getReg s m) ∧ t = { s with regs := t.regs, cycles := s.cycles + 3 }

/-- A long skip (44_branch_skip.md R162), 3 cycles: `R[P]` passes over two bytes when the condition holds and stays
otherwise. Nothing but `R[P]` and the cycle counter changes. -/
def LongSkipEffect (taken : Prop) (s t : State) : Prop :=
  (taken → (getReg t s.p).toNat = ((getReg s s.p).toNat + 2) % 65536) ∧
    (¬taken → getReg t s.p = getReg s s.p) ∧
    (∀ m, m ≠ s.p → getReg t m = getReg s m) ∧ t = { s with regs := t.regs, cycles := s.cycles + 3 }

/-- The memory of `t` is that of `s` after a store of `v` at `a` that the write-protect latch may drop (20_memory.md
R42): every other byte reads as before. -/
def StoredAt (s t : State) (a : Word) (v : Byte) : Prop :=
  ∀ b, readByte t b = if b = a ∧ s.mp = false then v else readByte s b

/-! ### Several instructions in a row -/

/-- The effects of handlers one after another, without the fetches between them. -/
def execAll (is : List Instr) (s : State) : Host.Outcome State Fault Refusal :=
  match is with
  | [] => .next s
  | i :: rest =>
    match exec i s with
    | .next s' => execAll rest s'
    | .fault r => .fault r
    | .refused r => .refused r

/-! ### The port instructions by array index -/

/-- `OUT` of the port whose register is `OutPort[k]` (46_io.md R217). -/
def outInstr (k : Fin 7) : Instr :=
  match k with
  | 0 => .out1
  | 1 => .out2
  | 2 => .out3
  | 3 => .out4
  | 4 => .out5
  | 5 => .out6
  | 6 => .out7

/-- `INP` of the port whose register is `InPort[k]` (46_io.md R217). -/
def inpInstr (k : Fin 7) : Instr :=
  match k with
  | 0 => .inp1
  | 1 => .inp2
  | 2 => .inp3
  | 3 => .inp4
  | 4 => .inp5
  | 5 => .inp6
  | 6 => .inp7

end Sys2Proof.Machine
end

