-- ==== Sys2Proof/Certificates/Slice0/Obligations.lean ====
section
/-! DEFINITION. The statements for the provers. Each docstring names the rules of spec/ it formalises. In a statement
about a handler the state `s` is the one after the fetch: `R[P]` points past the opcode byte (40_execution_loop.md
R81). A state equation `t = { s with … }` is the frame: every field not named is unchanged. A conjunct
`decodeOp 0xF1 … = .or` states the opcode byte the rule names: which byte selects which instruction is 30_encoding.md
R65, which the spec says it has from general knowledge but for a few bytes (log 16). -/

open Sys2Proof Sys2Proof.Machine

/-! ### Logic, arithmetic, shifts (42_alu.md) -/

/-- R111 to R116: OR, AND, XOR and their immediate forms act bit by bit on D, leave DF and everything else, cost 2. -/
def Obligations.LogicFormsActBitwiseAndKeepDF : Prop :=
  ∀ (s : State) (imm b2 : Byte),
    (decodeOp 0xF1 imm b2 = .or ∧ decodeOp 0xF2 imm b2 = .and ∧ decodeOp 0xF3 imm b2 = .xor ∧
     decodeOp 0xF9 imm b2 = .ori imm ∧ decodeOp 0xFA imm b2 = .ani imm ∧ decodeOp 0xFB imm b2 = .xri imm) ∧
    (∃ t, exec .or s = .next t ∧
      (∀ k < 8, t.d.getLsbD k = (s.d.getLsbD k || (readByte s (getReg s s.x)).getLsbD k)) ∧
      t = { s with d := t.d, cycles := s.cycles + 2 }) ∧
    (∃ t, exec .and s = .next t ∧
      (∀ k < 8, t.d.getLsbD k = (s.d.getLsbD k && (readByte s (getReg s s.x)).getLsbD k)) ∧
      t = { s with d := t.d, cycles := s.cycles + 2 }) ∧
    (∃ t, exec .xor s = .next t ∧
      (∀ k < 8, t.d.getLsbD k = (s.d.getLsbD k ^^ (readByte s (getReg s s.x)).getLsbD k)) ∧
      t = { s with d := t.d, cycles := s.cycles + 2 }) ∧
    (∃ t, exec (.ori imm) s = .next t ∧
      (∀ k < 8, t.d.getLsbD k = (s.d.getLsbD k || imm.getLsbD k)) ∧
      OneRegister s t s.p (getReg s s.p + 1) ∧
      t = { s with regs := t.regs, d := t.d, cycles := s.cycles + 2 }) ∧
    (∃ t, exec (.ani imm) s = .next t ∧
      (∀ k < 8, t.d.getLsbD k = (s.d.getLsbD k && imm.getLsbD k)) ∧
      OneRegister s t s.p (getReg s s.p + 1) ∧
      t = { s with regs := t.regs, d := t.d, cycles := s.cycles + 2 }) ∧
    (∃ t, exec (.xri imm) s = .next t ∧
      (∀ k < 8, t.d.getLsbD k = (s.d.getLsbD k ^^ imm.getLsbD k)) ∧
      OneRegister s t s.p (getReg s s.p + 1) ∧
      t = { s with regs := t.regs, d := t.d, cycles := s.cycles + 2 })

/-- R117 to R120: the addition forms add modulo 256, DF is the carry out, DF is the carry in of the carry forms. -/
def Obligations.AdditionFormsAddWithCarryOut : Prop :=
  ∀ (s : State) (imm b2 : Byte),
    (decodeOp 0xF4 imm b2 = .add ∧ decodeOp 0x74 imm b2 = .adc ∧ decodeOp 0xFC imm b2 = .adi imm ∧
     decodeOp 0x7C imm b2 = .adci imm) ∧
    (∃ t, exec .add s = .next t ∧
      t.d.toNat = (s.d.toNat + (readByte s (getReg s s.x)).toNat) % 256 ∧
      (t.df = true ↔ 255 < s.d.toNat + (readByte s (getReg s s.x)).toNat) ∧
      t = { s with d := t.d, df := t.df, cycles := s.cycles + 2 }) ∧
    (∃ t, exec .adc s = .next t ∧
      t.d.toNat = (s.d.toNat + (readByte s (getReg s s.x)).toNat + s.df.toNat) % 256 ∧
      (t.df = true ↔ 255 < s.d.toNat + (readByte s (getReg s s.x)).toNat + s.df.toNat) ∧
      t = { s with d := t.d, df := t.df, cycles := s.cycles + 2 }) ∧
    (∃ t, exec (.adi imm) s = .next t ∧
      t.d.toNat = (s.d.toNat + imm.toNat) % 256 ∧
      (t.df = true ↔ 255 < s.d.toNat + imm.toNat) ∧
      OneRegister s t s.p (getReg s s.p + 1) ∧
      t = { s with regs := t.regs, d := t.d, df := t.df, cycles := s.cycles + 2 }) ∧
    (∃ t, exec (.adci imm) s = .next t ∧
      t.d.toNat = (s.d.toNat + imm.toNat + s.df.toNat) % 256 ∧
      (t.df = true ↔ 255 < s.d.toNat + imm.toNat + s.df.toNat) ∧
      OneRegister s t s.p (getReg s s.p + 1) ∧
      t = { s with regs := t.regs, d := t.d, df := t.df, cycles := s.cycles + 2 })

/-- R121 to R124: the SD family computes operand minus D (minus the borrow), modulo 256; DF = 1 is "no borrow". -/
def Obligations.SdFamilySubtractsDFromTheOperand : Prop :=
  ∀ (s : State) (imm b2 : Byte),
    (decodeOp 0xF5 imm b2 = .sd ∧ decodeOp 0x75 imm b2 = .sdb ∧ decodeOp 0xFD imm b2 = .sdi imm ∧
     decodeOp 0x7D imm b2 = .sdbi imm) ∧
    (∃ t, exec .sd s = .next t ∧
      (t.d.toNat : Int) = ((readByte s (getReg s s.x)).toNat - s.d.toNat : Int) % 256 ∧
      (t.df = true ↔ s.d.toNat ≤ (readByte s (getReg s s.x)).toNat) ∧
      t = { s with d := t.d, df := t.df, cycles := s.cycles + 2 }) ∧
    (∃ t, exec .sdb s = .next t ∧
      (t.d.toNat : Int) = ((readByte s (getReg s s.x)).toNat - s.d.toNat - (1 - s.df.toNat) : Int) % 256 ∧
      (t.df = true ↔ (0 : Int) ≤ (readByte s (getReg s s.x)).toNat - s.d.toNat - (1 - s.df.toNat)) ∧
      t = { s with d := t.d, df := t.df, cycles := s.cycles + 2 }) ∧
    (∃ t, exec (.sdi imm) s = .next t ∧
      (t.d.toNat : Int) = (imm.toNat - s.d.toNat : Int) % 256 ∧
      (t.df = true ↔ s.d.toNat ≤ imm.toNat) ∧
      OneRegister s t s.p (getReg s s.p + 1) ∧
      t = { s with regs := t.regs, d := t.d, df := t.df, cycles := s.cycles + 2 }) ∧
    (∃ t, exec (.sdbi imm) s = .next t ∧
      (t.d.toNat : Int) = (imm.toNat - s.d.toNat - (1 - s.df.toNat) : Int) % 256 ∧
      (t.df = true ↔ (0 : Int) ≤ imm.toNat - s.d.toNat - (1 - s.df.toNat)) ∧
      OneRegister s t s.p (getReg s s.p + 1) ∧
      t = { s with regs := t.regs, d := t.d, df := t.df, cycles := s.cycles + 2 })

/-- R125 to R128: the SM family computes D minus the operand (minus the borrow), modulo 256; DF = 1 is "no borrow". -/
def Obligations.SmFamilySubtractsTheOperandFromD : Prop :=
  ∀ (s : State) (imm b2 : Byte),
    (decodeOp 0xF7 imm b2 = .sm ∧ decodeOp 0x77 imm b2 = .smb ∧ decodeOp 0xFF imm b2 = .smi imm ∧
     decodeOp 0x7F imm b2 = .smbi imm) ∧
    (∃ t, exec .sm s = .next t ∧
      (t.d.toNat : Int) = (s.d.toNat - (readByte s (getReg s s.x)).toNat : Int) % 256 ∧
      (t.df = true ↔ (readByte s (getReg s s.x)).toNat ≤ s.d.toNat) ∧
      t = { s with d := t.d, df := t.df, cycles := s.cycles + 2 }) ∧
    (∃ t, exec .smb s = .next t ∧
      (t.d.toNat : Int) = (s.d.toNat - (readByte s (getReg s s.x)).toNat - (1 - s.df.toNat) : Int) % 256 ∧
      (t.df = true ↔ (0 : Int) ≤ s.d.toNat - (readByte s (getReg s s.x)).toNat - (1 - s.df.toNat)) ∧
      t = { s with d := t.d, df := t.df, cycles := s.cycles + 2 }) ∧
    (∃ t, exec (.smi imm) s = .next t ∧
      (t.d.toNat : Int) = (s.d.toNat - imm.toNat : Int) % 256 ∧
      (t.df = true ↔ imm.toNat ≤ s.d.toNat) ∧
      OneRegister s t s.p (getReg s s.p + 1) ∧
      t = { s with regs := t.regs, d := t.d, df := t.df, cycles := s.cycles + 2 }) ∧
    (∃ t, exec (.smbi imm) s = .next t ∧
      (t.d.toNat : Int) = (s.d.toNat - imm.toNat - (1 - s.df.toNat) : Int) % 256 ∧
      (t.df = true ↔ (0 : Int) ≤ s.d.toNat - imm.toNat - (1 - s.df.toNat)) ∧
      OneRegister s t s.p (getReg s s.p + 1) ∧
      t = { s with regs := t.regs, d := t.d, df := t.df, cycles := s.cycles + 2 })

/-- R129 to R132: SHR and SHRC halve D, SHL and SHLC double it, with 0 or the old DF in the vacated bit and the bit
shifted out in DF. -/
def Obligations.ShiftsMoveOneBitThroughDF : Prop :=
  ∀ (s : State) (b1 b2 : Byte),
    (decodeOp 0xF6 b1 b2 = .shr ∧ decodeOp 0x76 b1 b2 = .shrc ∧ decodeOp 0xFE b1 b2 = .shl ∧
     decodeOp 0x7E b1 b2 = .shlc) ∧
    (∃ t, exec .shr s = .next t ∧
      t.d.toNat = s.d.toNat / 2 ∧ (t.df = true ↔ s.d.toNat % 2 = 1) ∧
      t = { s with d := t.d, df := t.df, cycles := s.cycles + 2 }) ∧
    (∃ t, exec .shrc s = .next t ∧
      t.d.toNat = s.df.toNat * 128 + s.d.toNat / 2 ∧ (t.df = true ↔ s.d.toNat % 2 = 1) ∧
      t = { s with d := t.d, df := t.df, cycles := s.cycles + 2 }) ∧
    (∃ t, exec .shl s = .next t ∧
      t.d.toNat = 2 * s.d.toNat % 256 ∧ (t.df = true ↔ 128 ≤ s.d.toNat) ∧
      t = { s with d := t.d, df := t.df, cycles := s.cycles + 2 }) ∧
    (∃ t, exec .shlc s = .next t ∧
      t.d.toNat = (2 * s.d.toNat + s.df.toNat) % 256 ∧ (t.df = true ↔ 128 ≤ s.d.toNat) ∧
      t = { s with d := t.d, df := t.df, cycles := s.cycles + 2 })

/-- R130, R132, corner cases: nine SHRC in a row restore D and DF, and so do nine SHLC; nothing else changes but the
cycle counter, by 18. -/
def Obligations.NineRotationsRestoreDAndDF : Prop :=
  ∀ s : State,
    execAll (List.replicate 9 .shrc) s = .next { s with cycles := s.cycles + 18 } ∧
    execAll (List.replicate 9 .shlc) s = .next { s with cycles := s.cycles + 18 }

/-- R135: SM on the low bytes and then SMB on the high bytes subtract 16-bit values, SD and SDB likewise with the
operands exchanged, ADD and ADC add, DF carrying between them and telling the borrow or carry out of the whole. The
state `s2` of the second instruction is any that kept DF. -/
def Obligations.CarryChainsComputeSixteenBitResults : Prop :=
  ∀ (a b : Word) (s1 s2 t1 : State), s1.d = loByte a → readByte s1 (getReg s1 s1.x) = loByte b →
    s2.d = hiByte a → readByte s2 (getReg s2 s2.x) = hiByte b → s2.df = t1.df →
    (exec .sm s1 = .next t1 → ∃ t2, exec .smb s2 = .next t2 ∧ joinBytes t2.d t1.d = a - b ∧
      (t2.df = true ↔ b.toNat ≤ a.toNat)) ∧
    (exec .sd s1 = .next t1 → ∃ t2, exec .sdb s2 = .next t2 ∧ joinBytes t2.d t1.d = b - a ∧
      (t2.df = true ↔ a.toNat ≤ b.toNat)) ∧
    (exec .add s1 = .next t1 → ∃ t2, exec .adc s2 = .next t2 ∧ joinBytes t2.d t1.d = a + b ∧
      (t2.df = true ↔ 65535 < a.toNat + b.toNat))

/-! ### Loads, stores, registers (43_load_store_register.md) -/

/-- R141 to R145: every load takes the addressed byte into D; LDA and LDXA advance the register they addressed
through, LDI passes over its immediate; nothing else changes. LDN has N = 1 to 15 (R141, R67). -/
def Obligations.LoadsTakeTheAddressedByteIntoD : Prop :=
  ∀ (s : State) (n : Nibble) (imm b2 : Byte),
    ((n ≠ 0 → decodeOp (joinNibbles 0 n) imm b2 = .ldn n) ∧ decodeOp (joinNibbles 4 n) imm b2 = .lda n ∧
      decodeOp 0xF0 imm b2 = .ldx ∧ decodeOp 0x72 imm b2 = .ldxa ∧ decodeOp 0xF8 imm b2 = .ldi imm) ∧
    (n ≠ 0 → exec (.ldn n) s = .next { s with d := readByte s (getReg s n), cycles := s.cycles + 2 }) ∧
    exec .ldx s = .next { s with d := readByte s (getReg s s.x), cycles := s.cycles + 2 } ∧
    (∃ t, exec (.lda n) s = .next t ∧ t.d = readByte s (getReg s n) ∧ OneRegister s t n (getReg s n + 1) ∧
      t = { s with regs := t.regs, d := t.d, cycles := s.cycles + 2 }) ∧
    (∃ t, exec .ldxa s = .next t ∧ t.d = readByte s (getReg s s.x) ∧ OneRegister s t s.x (getReg s s.x + 1) ∧
      t = { s with regs := t.regs, d := t.d, cycles := s.cycles + 2 }) ∧
    (∃ t, exec (.ldi imm) s = .next t ∧ t.d = imm ∧ OneRegister s t s.p (getReg s s.p + 1) ∧
      t = { s with regs := t.regs, d := t.d, cycles := s.cycles + 2 })

/-- R146, R147, R205: STR stores D at R[N], STXD at R[X], SAV stores T at R[X], each one byte and each dropped when MP
is set; STXD steps R[X] down either way; nothing else changes. -/
def Obligations.StoresWriteOneByteAndNothingElse : Prop :=
  ∀ (s : State) (n : Nibble) (b1 b2 : Byte),
    (decodeOp (joinNibbles 5 n) b1 b2 = .str n ∧ decodeOp 0x73 b1 b2 = .stxd ∧ decodeOp 0x78 b1 b2 = .sav) ∧
    (∃ t, exec (.str n) s = .next t ∧ StoredAt s t (getReg s n) s.d ∧
      t = { s with mem := t.mem, cycles := s.cycles + 2 }) ∧
    (∃ t, exec .stxd s = .next t ∧ StoredAt s t (getReg s s.x) s.d ∧ OneRegister s t s.x (getReg s s.x - 1) ∧
      t = { s with regs := t.regs, mem := t.mem, cycles := s.cycles + 2 }) ∧
    (∃ t, exec .sav s = .next t ∧ StoredAt s t (getReg s s.x) s.t ∧
      t = { s with mem := t.mem, cycles := s.cycles + 2 })

/-- R148 to R150, R11: IRX, INC and DEC step one register modulo 65536 and touch no flag and no memory. -/
def Obligations.RegisterStepsWrapAndTouchNoFlag : Prop :=
  ∀ (s : State) (n : Nibble) (b1 b2 : Byte),
    (decodeOp 0x60 b1 b2 = .irx ∧ decodeOp (joinNibbles 1 n) b1 b2 = .inc n ∧
      decodeOp (joinNibbles 2 n) b1 b2 = .dec n) ∧
    (∃ t, exec .irx s = .next t ∧ (getReg t s.x).toNat = ((getReg s s.x).toNat + 1) % 65536 ∧
      (∀ m, m ≠ s.x → getReg t m = getReg s m) ∧ t = { s with regs := t.regs, cycles := s.cycles + 2 }) ∧
    (∃ t, exec (.inc n) s = .next t ∧ (getReg t n).toNat = ((getReg s n).toNat + 1) % 65536 ∧
      (∀ m, m ≠ n → getReg t m = getReg s m) ∧ t = { s with regs := t.regs, cycles := s.cycles + 2 }) ∧
    (∃ t, exec (.dec n) s = .next t ∧ (getReg t n).toNat = ((getReg s n).toNat + 65535) % 65536 ∧
      (∀ m, m ≠ n → getReg t m = getReg s m) ∧ t = { s with regs := t.regs, cycles := s.cycles + 2 })

/-- R151 to R154 (the spec's general knowledge, log 16): GLO and GHI copy one half of R[N] to D, PLO and PHI replace
one half of R[N] by D and keep the other. -/
def Obligations.RegisterBytesMoveThroughD : Prop :=
  ∀ (s : State) (n : Nibble) (b1 b2 : Byte),
    (decodeOp (joinNibbles 8 n) b1 b2 = .glo n ∧ decodeOp (joinNibbles 9 n) b1 b2 = .ghi n ∧
      decodeOp (joinNibbles 0xA n) b1 b2 = .plo n ∧ decodeOp (joinNibbles 0xB n) b1 b2 = .phi n) ∧
    (∃ t, exec (.glo n) s = .next t ∧ t.d.toNat = (getReg s n).toNat % 256 ∧
      t = { s with d := t.d, cycles := s.cycles + 2 }) ∧
    (∃ t, exec (.ghi n) s = .next t ∧ t.d.toNat = (getReg s n).toNat / 256 ∧
      t = { s with d := t.d, cycles := s.cycles + 2 }) ∧
    (∃ t, exec (.plo n) s = .next t ∧ (getReg t n).toNat = (getReg s n).toNat / 256 * 256 + s.d.toNat ∧
      (∀ m, m ≠ n → getReg t m = getReg s m) ∧ t = { s with regs := t.regs, cycles := s.cycles + 2 }) ∧
    (∃ t, exec (.phi n) s = .next t ∧ (getReg t n).toNat = s.d.toNat * 256 + (getReg s n).toNat % 256 ∧
      (∀ m, m ≠ n → getReg t m = getReg s m) ∧ t = { s with regs := t.regs, cycles := s.cycles + 2 })

/-! ### Branches and skips (44_branch_skip.md) -/

/-- R164 to R171 and R173 to R179 with R160 (the page: decision D3, log 10) and R163: every short branch, its
predicate and its effect. -/
def Obligations.ShortBranchesFollowTheirPredicate : Prop :=
  ∀ (s : State) (b b2 : Byte),
    (decodeOp 0x30 b b2 = .br b ∧ decodeOp 0x31 b b2 = .bq b ∧ decodeOp 0x32 b b2 = .bz b ∧
     decodeOp 0x33 b b2 = .bdf b ∧ decodeOp 0x34 b b2 = .b1 b ∧ decodeOp 0x35 b b2 = .b2 b ∧
     decodeOp 0x36 b b2 = .b3 b ∧ decodeOp 0x37 b b2 = .b4 b ∧ decodeOp 0x39 b b2 = .bnq b ∧
     decodeOp 0x3A b b2 = .bnz b ∧ decodeOp 0x3B b b2 = .bnf b ∧ decodeOp 0x3C b b2 = .bn1 b ∧
     decodeOp 0x3D b b2 = .bn2 b ∧ decodeOp 0x3E b b2 = .bn3 b ∧ decodeOp 0x3F b b2 = .bn4 b) ∧
    (∃ t, exec (.br b) s = .next t ∧ ShortBranchEffect True b s t) ∧
    (∃ t, exec (.bq b) s = .next t ∧ ShortBranchEffect (s.q = true) b s t) ∧
    (∃ t, exec (.bz b) s = .next t ∧ ShortBranchEffect (s.d.toNat = 0) b s t) ∧
    (∃ t, exec (.bdf b) s = .next t ∧ ShortBranchEffect (s.df = true) b s t) ∧
    (∃ t, exec (.b1 b) s = .next t ∧ ShortBranchEffect (s.ef[0] = true) b s t) ∧
    (∃ t, exec (.b2 b) s = .next t ∧ ShortBranchEffect (s.ef[1] = true) b s t) ∧
    (∃ t, exec (.b3 b) s = .next t ∧ ShortBranchEffect (s.ef[2] = true) b s t) ∧
    (∃ t, exec (.b4 b) s = .next t ∧ ShortBranchEffect (s.ef[3] = true) b s t) ∧
    (∃ t, exec (.bnq b) s = .next t ∧ ShortBranchEffect (s.q = false) b s t) ∧
    (∃ t, exec (.bnz b) s = .next t ∧ ShortBranchEffect (s.d.toNat ≠ 0) b s t) ∧
    (∃ t, exec (.bnf b) s = .next t ∧ ShortBranchEffect (s.df = false) b s t) ∧
    (∃ t, exec (.bn1 b) s = .next t ∧ ShortBranchEffect (s.ef[0] = false) b s t) ∧
    (∃ t, exec (.bn2 b) s = .next t ∧ ShortBranchEffect (s.ef[1] = false) b s t) ∧
    (∃ t, exec (.bn3 b) s = .next t ∧ ShortBranchEffect (s.ef[2] = false) b s t) ∧
    (∃ t, exec (.bn4 b) s = .next t ∧ ShortBranchEffect (s.ef[3] = false) b s t)

/-- R180 to R183 and R189 to R191 with R161 and R163: every long branch, its predicate and its effect. -/
def Obligations.LongBranchesFollowTheirPredicate : Prop :=
  ∀ (s : State) (hi lo : Byte),
    (decodeOp 0xC0 hi lo = .lbr (joinBytes hi lo) ∧ decodeOp 0xC1 hi lo = .lbq (joinBytes hi lo) ∧
     decodeOp 0xC2 hi lo = .lbz (joinBytes hi lo) ∧ decodeOp 0xC3 hi lo = .lbdf (joinBytes hi lo) ∧
     decodeOp 0xC9 hi lo = .lbnq (joinBytes hi lo) ∧ decodeOp 0xCA hi lo = .lbnz (joinBytes hi lo) ∧
     decodeOp 0xCB hi lo = .lbnf (joinBytes hi lo)) ∧
    (∃ t, exec (.lbr (joinBytes hi lo)) s = .next t ∧ LongBranchEffect True (joinBytes hi lo) s t) ∧
    (∃ t, exec (.lbq (joinBytes hi lo)) s = .next t ∧ LongBranchEffect (s.q = true) (joinBytes hi lo) s t) ∧
    (∃ t, exec (.lbz (joinBytes hi lo)) s = .next t ∧ LongBranchEffect (s.d.toNat = 0) (joinBytes hi lo) s t) ∧
    (∃ t, exec (.lbdf (joinBytes hi lo)) s = .next t ∧ LongBranchEffect (s.df = true) (joinBytes hi lo) s t) ∧
    (∃ t, exec (.lbnq (joinBytes hi lo)) s = .next t ∧ LongBranchEffect (s.q = false) (joinBytes hi lo) s t) ∧
    (∃ t, exec (.lbnz (joinBytes hi lo)) s = .next t ∧ LongBranchEffect (s.d.toNat ≠ 0) (joinBytes hi lo) s t) ∧
    (∃ t, exec (.lbnf (joinBytes hi lo)) s = .next t ∧ LongBranchEffect (s.df = false) (joinBytes hi lo) s t)

/-- R172, R184 to R188 and R192 to R195 with R162 and R163: the short skip passes over one byte, every long skip over
two when its predicate holds, and NOP over none. NOP and the predicate of LSIE are the spec's general knowledge (log
16); that a skip is one byte is decision D24 (log 10). -/
def Obligations.SkipsFollowTheirPredicate : Prop :=
  ∀ (s : State) (b1 b2 : Byte),
    (decodeOp 0x38 b1 b2 = .skp ∧ decodeOp 0xC4 b1 b2 = .nop ∧ decodeOp 0xC8 b1 b2 = .lskp ∧
     decodeOp 0xC5 b1 b2 = .lsnq ∧ decodeOp 0xC6 b1 b2 = .lsnz ∧ decodeOp 0xC7 b1 b2 = .lsnf ∧
     decodeOp 0xCC b1 b2 = .lsie ∧ decodeOp 0xCD b1 b2 = .lsq ∧ decodeOp 0xCE b1 b2 = .lsz ∧
     decodeOp 0xCF b1 b2 = .lsdf) ∧
    (∃ t, exec .skp s = .next t ∧ (getReg t s.p).toNat = ((getReg s s.p).toNat + 1) % 65536 ∧
      (∀ m, m ≠ s.p → getReg t m = getReg s m) ∧ t = { s with regs := t.regs, cycles := s.cycles + 2 }) ∧
    (∃ t, exec .nop s = .next t ∧ LongSkipEffect False s t) ∧
    (∃ t, exec .lskp s = .next t ∧ LongSkipEffect True s t) ∧
    (∃ t, exec .lsnq s = .next t ∧ LongSkipEffect (s.q = false) s t) ∧
    (∃ t, exec .lsnz s = .next t ∧ LongSkipEffect (s.d.toNat ≠ 0) s t) ∧
    (∃ t, exec .lsnf s = .next t ∧ LongSkipEffect (s.df = false) s t) ∧
    (∃ t, exec .lsie s = .next t ∧ LongSkipEffect (s.ie = true) s t) ∧
    (∃ t, exec .lsq s = .next t ∧ LongSkipEffect (s.q = true) s t) ∧
    (∃ t, exec .lsz s = .next t ∧ LongSkipEffect (s.d.toNat = 0) s t) ∧
    (∃ t, exec .lsdf s = .next t ∧ LongSkipEffect (s.df = true) s t)

/-- R163 (the page: decision D3, log 10): in row 3x bit 3 of the opcode inverts the predicate: of the opcodes 3N and
3(N+8), whatever the state, one goes to the operand byte's address and the other passes over the operand byte. -/
def Obligations.BitThreeOfRowThreeInvertsThePredicate : Prop :=
  ∀ (s t u : State) (n : Nibble) (b : Byte), n.toNat < 8 →
    exec (decodeOp (joinNibbles 3 n) b 0) s = .next t → exec (decodeOp (joinNibbles 3 (n + 8)) b 0) s = .next u →
    (getReg t s.p = joinBytes (hiByte (getReg s s.p)) b ∧ getReg u s.p = getReg s s.p + 1) ∨
    (getReg t s.p = getReg s s.p + 1 ∧ getReg u s.p = joinBytes (hiByte (getReg s s.p)) b)

/-- R160, R161, R64, R80 (the page of the operand byte is decision D3, log 10): fetched and run, the opcode 30 jumps
within the page of the operand byte (the byte after the opcode), also when the opcode is the last byte of a page, and
C0 jumps to the two bytes after it, the first the high half; addresses wrap. -/
def Obligations.BranchTargetsAreTheBytesAfterTheOpcode : Prop :=
  ∀ s : State,
    (readByte s (getReg s s.p) = 0x30 → ∃ t, runInstr s = .next t ∧
      (getReg t s.p).toNat =
        256 * ((getReg s s.p + 1).toNat / 256) + (readByte s (getReg s s.p + 1)).toNat) ∧
    (readByte s (getReg s s.p) = 0xC0 → ∃ t, runInstr s = .next t ∧
      (getReg t s.p).toNat =
        256 * (readByte s (getReg s s.p + 1)).toNat + (readByte s (getReg s s.p + 2)).toNat)

/-! ### Control (45_control.md) -/

/-- R200, R201: SEP writes P and SEX writes X with the low nibble of the opcode; no register changes. Stated of the
two opcode bytes, so that the nibble is the opcode's. -/
def Obligations.SelectorWritesChangeNothingElse : Prop :=
  ∀ (s : State) (n : Nibble) (b1 b2 : Byte),
    exec (decodeOp (joinNibbles 0xD n) b1 b2) s = .next { s with p := n, cycles := s.cycles + 2 } ∧
    exec (.sep n) s = .next { s with p := n, cycles := s.cycles + 2 } ∧
    exec (decodeOp (joinNibbles 0xE n) b1 b2) s = .next { s with x := n, cycles := s.cycles + 2 } ∧
    exec (.sex n) s = .next { s with x := n, cycles := s.cycles + 2 }

/-- R202, R203 (that the OLD X's register advances is decision D4, log 10): RET and DIS read one byte through the old
R[X], advance that register, and take X from the byte's high nibble, P from its low nibble, IE = 1 (RET) or 0 (DIS).
-/
def Obligations.RetAndDisLoadSelectorsThroughOldX : Prop :=
  ∀ (s : State) (b1 b2 : Byte),
    (decodeOp 0x70 b1 b2 = .ret ∧ decodeOp 0x71 b1 b2 = .dis) ∧
    (∃ t, exec .ret s = .next t ∧ OneRegister s t s.x (getReg s s.x + 1) ∧
      t.x.toNat = (readByte s (getReg s s.x)).toNat / 16 ∧ t.p.toNat = (readByte s (getReg s s.x)).toNat % 16 ∧
      t.ie = true ∧ t = { s with regs := t.regs, x := t.x, p := t.p, ie := t.ie, cycles := s.cycles + 2 }) ∧
    (∃ t, exec .dis s = .next t ∧ OneRegister s t s.x (getReg s s.x + 1) ∧
      t.x.toNat = (readByte s (getReg s s.x)).toNat / 16 ∧ t.p.toNat = (readByte s (getReg s s.x)).toNat % 16 ∧
      t.ie = false ∧ t = { s with regs := t.regs, x := t.x, p := t.p, ie := t.ie, cycles := s.cycles + 2 })

/-- R204: MARK packs X and P into T, stores it at R[2] (unless MP is set), makes X = P and steps R[2] down. -/
def Obligations.MarkSavesTheSelectorPair : Prop :=
  ∀ (s : State) (b1 b2 : Byte), decodeOp 0x79 b1 b2 = .mark ∧ ∃ t, exec .mark s = .next t ∧
    t.t.toNat = 16 * s.x.toNat + s.p.toNat ∧ StoredAt s t (getReg s 2) t.t ∧ t.x = s.p ∧
    OneRegister s t 2 (getReg s 2 - 1) ∧
    t = { s with regs := t.regs, mem := t.mem, t := t.t, x := t.x, cycles := s.cycles + 2 }

/-- R207 (b), with R204 and R202: what MARK pushed, RET pops: if MARK ran with MP clear, and RET then runs in any
state whose X selects a register that points at the pushed byte, with memory as MARK left it, X and P are again those
before MARK. -/
def Obligations.RetRestoresWhatMarkPushed : Prop :=
  ∀ s t u : State, exec .mark s = .next t → s.mp = false → u.mem = t.mem → getReg u u.x = getReg s 2 →
    ∃ v, exec .ret u = .next v ∧ v.x = s.x ∧ v.p = s.p

/-- R206, R251 (that a step is one turn of the machine is log 4's choice): IDL sets the idle flag and nothing else,
and costs 2. Idle then ends the run at the machine's next turn: no instruction runs any more, whatever memory holds.
-/
def Obligations.IdlEndsTheRun : Prop :=
  ∀ (s : State) (b1 b2 : Byte), decodeOp 0x00 b1 b2 = .idl ∧
    exec .idl s = .next { s with idle := true, cycles := s.cycles + 2 } ∧
    (s.idle = true → s.inputs = [] →
      ∃ t, step s = .next t ∧ t.running = false ∧ SameArchitecture { s with running := false } t)

/-! ### Input and output (46_io.md) -/

/-- R224, R220, R217: 61..67 are OUT to array element 0..6. OUT sends the byte at R[X] to its port register, tells the
observer exactly when the value changes, and advances R[X] in any case; D and memory are not involved. -/
def Obligations.OutSendsTheByteAtRX : Prop :=
  ∀ (k : Fin 7) (s : State) (b1 b2 : Byte), decodeOp (BitVec.ofNat 8 (0x61 + k.val)) b1 b2 = outInstr k ∧
    ∃ t, exec (outInstr k) s = .next t ∧
    (∀ j : Fin 7, t.outPort[j] = if j = k then readByte s (getReg s s.x) else s.outPort[j]) ∧
    (s.outPort[k] = readByte s (getReg s s.x) → t.events = s.events) ∧
    (s.outPort[k] ≠ readByte s (getReg s s.x) →
      t.events = s.events ++ [.portChanged k (readByte s (getReg s s.x))]) ∧
    OneRegister s t s.x (getReg s s.x + 1) ∧
    t = { s with regs := t.regs, outPort := t.outPort, events := t.events, cycles := s.cycles + 2 }

/-- R225 (MP drops only the store: decision D27, log 10), R217: 69..6F are INP from array element 0..6. INP puts the
port's byte into D and into memory at R[X] (the store dropped when MP is set, D loaded all the same); R[X] stays, no
event. -/
def Obligations.InpReadsThePortIntoMemoryAndD : Prop :=
  ∀ (k : Fin 7) (s : State) (b1 b2 : Byte), decodeOp (BitVec.ofNat 8 (0x69 + k.val)) b1 b2 = inpInstr k ∧
    ∃ t, exec (inpInstr k) s = .next t ∧ t.d = s.inPort[k] ∧
    StoredAt s t (getReg s s.x) s.inPort[k] ∧ t = { s with mem := t.mem, d := t.d, cycles := s.cycles + 2 }

/-- R226, R227, R221: SEQ and REQ write Q and emit one event exactly when Q changes. -/
def Obligations.SeqAndReqReportOnlyChangesOfQ : Prop :=
  ∀ (s : State) (b1 b2 : Byte),
    (decodeOp 0x7B b1 b2 = .seq ∧ decodeOp 0x7A b1 b2 = .req) ∧
    (s.q = false → exec .seq s =
      .next { s with q := true, events := s.events ++ [.qChanged true], cycles := s.cycles + 2 }) ∧
    (s.q = true → exec .seq s = .next { s with cycles := s.cycles + 2 }) ∧
    (s.q = true → exec .req s =
      .next { s with q := false, events := s.events ++ [.qChanged false], cycles := s.cycles + 2 }) ∧
    (s.q = false → exec .req s = .next { s with cycles := s.cycles + 2 })

/-- R222 (a), (b), (e), R29 (observer mechanics: decision D17, log 10): whatever the program and the host do, every
step keeps the event trace edge-triggered: no recorded value of a port or of Q is followed by itself, and the last
recorded one is what the register holds; and a step only adds events at the end of the trace. -/
def Obligations.StepKeepsTraceEdgeTriggered : Prop :=
  ∀ s t : State, TraceIsEdgeTriggered s → step s = .next t →
    TraceIsEdgeTriggered t ∧ ∃ new, t.events = s.events ++ new

/-! ### The decode fault (60_exceptions.md) and totality -/

/-- R66, R235, R237, R243 (decision D10, log 10): 68 is the only byte without a handler, whatever follows it; it
records the fault and ends the run; every register, flag, memory byte, port, and the cycle counter keep their values.
-/
def Obligations.DecodeFaultRecordsAndEndsTheRun : Prop :=
  ∀ (s : State) (op b1 b2 : Byte), (decodeOp op b1 b2 = .undefined ↔ op = 0x68) ∧
    exec (decodeOp 0x68 b1 b2) s = .next { s with fault := some 0x68, running := false } ∧
    exec .undefined s = .next { s with fault := some 0x68, running := false }

/-- R235, R237, R83, R80 (decision D10, log 10), of the whole step: in a run that is to go on, fetching 68 leaves R[P]
past the byte, adds no cycles, ends the run Stopped, not Idle, and changes nothing else but the scheduler's variables.
-/
def Obligations.StepOnByte68StopsTheRun : Prop :=
  ∀ s : State, s.inputs = [] → s.running = true → loopEnds s = false → s.stepRun = false →
    readByte s (getReg s s.p) = 0x68 →
    ∃ t, step s = .next t ∧ OneRegister s t s.p (getReg s s.p + 1) ∧ runState t = .stopped ∧
      t.fault = some 0x68 ∧
      SameArchitecture { s with regs := t.regs, fault := some 0x68, running := false } t

/-- R238, R93: every handler is total; none but the decode fault records a fault or ends the run. -/
def Obligations.EveryHandlerIsTotal : Prop :=
  ∀ (i : Instr) (s : State), ∃ t, exec i s = .next t ∧
    (i ≠ .undefined → t.fault = s.fault ∧ t.running = s.running)

/-- R93, R238, R253 (that a forbidden host call refuses the step is logs 3 and 13): a step stops only on a host call:
with none pending it always answers a next state, and so does it when the pending calls of the boundary are allowed
and in range. -/
def Obligations.StepAnswersUnlessAHostCallIsRefused : Prop :=
  ∀ s : State,
    (s.inputs = [] → ∃ t, step s = .next t) ∧
    (∀ calls rest u, s.inputs = calls :: rest → hostCalls calls { s with inputs := rest } = .ok u →
      ∃ t, step s = .next t)

/-! ### Whole-machine rules about instructions -/

/-- R84, R83, R22 (which opcodes cost 3 is decision D2, log 10): a handler adds 3 cycles if the opcode's high nibble
is C, 2 for every other instruction, none for byte 68, whatever the state. -/
def Obligations.CostIsFixedByTheOpcodeRow : Prop :=
  ∀ (i : Instr) (s t : State), exec i s = .next t →
    t.cycles = s.cycles +
      (if opcodeOf i = 0x68 then 0 else if (opcodeOf i).toNat / 16 = 0xC then 3 else 2)

/-- R208: which instructions write P, X, IE, T, the idle flag and Q. -/
def Obligations.OnlyTheNamedInstructionsWriteControlState : Prop :=
  ∀ (i : Instr) (s t : State), exec i s = .next t →
    (t.p ≠ s.p → (∃ n, i = .sep n) ∨ i = .ret ∨ i = .dis) ∧
    (t.x ≠ s.x → (∃ n, i = .sex n) ∨ i = .ret ∨ i = .dis ∨ i = .mark) ∧
    (t.ie ≠ s.ie → i = .ret ∨ i = .dis) ∧
    (t.t ≠ s.t → i = .mark) ∧
    (t.idle ≠ s.idle → i = .idl) ∧
    (t.q ≠ s.q → i = .seq ∨ i = .req)

/-- R15, R134: DF is written only by the additions, the subtractions and the shifts. -/
def Obligations.OnlyArithmeticAndShiftsWriteDF : Prop :=
  ∀ (i : Instr) (s t : State), exec i s = .next t → t.df ≠ s.df →
    i = .add ∨ i = .adc ∨ (∃ b, i = .adi b) ∨ (∃ b, i = .adci b) ∨
    i = .sd ∨ i = .sdb ∨ (∃ b, i = .sdi b) ∨ (∃ b, i = .sdbi b) ∨
    i = .sm ∨ i = .smb ∨ (∃ b, i = .smi b) ∨ (∃ b, i = .smbi b) ∨
    i = .shr ∨ i = .shrc ∨ i = .shl ∨ i = .shlc

/-- R42, R46, R216: memory changes only by STR, STXD, MARK, SAV and INP, and only while MP is clear; an output port
changes only by OUT. -/
def Obligations.OnlyStoresWriteMemoryAndOnlyOutWritesPorts : Prop :=
  ∀ (i : Instr) (s t : State), exec i s = .next t →
    ((∃ a, readByte t a ≠ readByte s a) →
      s.mp = false ∧ ((∃ n, i = .str n) ∨ i = .stxd ∨ i = .mark ∨ i = .sav ∨ ∃ k, i = inpInstr k)) ∧
    (t.outPort ≠ s.outPort → ∃ k, i = outInstr k)

/-- R12, R13: which general registers an instruction may change: R[P]; the one its opcode names, by INC, DEC, LDA, PLO
and PHI alone; R[X], by IRX, LDXA, STXD, OUT, RET and DIS alone; R[2], by MARK alone. -/
def Obligations.OnlyAddressedRegistersChange : Prop :=
  ∀ (i : Instr) (s t : State) (m : Nibble), exec i s = .next t → getReg t m ≠ getReg s m →
    m = s.p ∨ (i = .inc m ∨ i = .dec m ∨ i = .lda m ∨ i = .plo m ∨ i = .phi m) ∨
    (m = s.x ∧ (i = .irx ∨ i = .ldxa ∨ i = .stxd ∨ i = .ret ∨ i = .dis ∨ ∃ k, i = outInstr k)) ∨
    (m = 2 ∧ i = .mark)

/-- R208, R20, R24, R26, R28, R44, R100: no instruction writes an external flag, an input port, MP, the stop flag, the
single-step toggle, the cap, the observer or the scheduler's variables. -/
def Obligations.InstructionsNeverWriteTheHostSide : Prop :=
  ∀ (i : Instr) (s t : State), exec i s = .next t → SameHostSide s t

/-- R19, R241 (decision D16, log 10): IE gates nothing: every instruction but LSIE does the same whatever IE is (RET
and DIS, which write it, leave the same state). -/
def Obligations.IEGatesNothingButLsie : Prop :=
  ∀ (i : Instr) (s t : State) (b : Bool), i ≠ .lsie → exec i s = .next t →
    ∃ u, exec i { s with ie := b } = .next u ∧ t = { u with ie := t.ie }

/-! ### The execution loop (40_execution_loop.md) -/

/-- R80, R85 (the order of the boundary's parts, and a step as one turn, are logs 3 and 4): a step whose run is to go
on, or whose boundary holds the call run(), runs the instruction that the bytes at R[P] decode to: exec of it, at the
state whose R[P] is past the opcode; around it the scheduler (a checkpoint that is due before, the charge after), and
in a single-step run the end of the run. The last clause is any boundary during a run: the host's calls come first. -/
def Obligations.StepRunsTheDecodedInstruction : Prop :=
  ∀ (s : State) (i : Instr) (rest : List Byte),
    (decode [readByte s (getReg s s.p), readByte s (getReg s s.p + 1), readByte s (getReg s s.p + 2)] = .ok (i, rest) →
      s.idle = false →
      (s.inputs = [] → s.running = true → s.stepRun = false → s.stopReq = false → capReached s = false →
        ∃ t, exec i (advancePc (paceCheckpoint false s) 1) = .next t ∧ step s = .next (afterInstr i t)) ∧
      (∀ later, s.inputs = [.run] :: later → s.running = false → s.stepMode = false → capReached s = false →
        ∃ t, exec i (advancePc (enterRun { s with inputs := later }) 1) = .next t ∧ step s = .next (afterInstr i t)) ∧
      (∀ later, s.inputs = [.run] :: later → s.running = false → s.stepMode = true →
        ∃ t, exec i (advancePc (enterRun { s with inputs := later }) 1) = .next t ∧ step s = .next (endRun t))) ∧
    (∀ calls later u, s.inputs = calls :: later → hostCalls calls { s with inputs := later } = .ok u →
      decode [readByte u (getReg u u.p), readByte u (getReg u u.p + 1), readByte u (getReg u u.p + 2)] = .ok (i, rest) →
      u.running = true → u.stepRun = false → loopEnds u = false → paceWaits true u = false →
      ∃ t, exec i (advancePc (paceCheckpoint true u) 1) = .next t ∧ step s = .next (afterInstr i t))

/-- R88, R82 (decision D25, log 10; boundaries: logs 3, 4): a stop request ends the loop before the next instruction:
nothing is fetched, no cycles, no register; the run-state is Stopped (or Idle if the machine idles). -/
def Obligations.StopIsObservedBeforeTheNextInstruction : Prop :=
  ∀ s : State, s.running = true → s.stepRun = false →
    (s.stopReq = true → s.inputs = [] →
      ∃ t, step s = .next t ∧ SameArchitecture { s with running := false } t) ∧
    (∀ later, s.inputs = [.stop] :: later →
      ∃ t, step s = .next t ∧ SameArchitecture { s with running := false, stopReq := true, inputs := later } t)

/-- R87 (absolute and strict: decision D8, log 10): the loop ends before an instruction exactly when the absolute
counter is above the cap: at the cap it still runs one. -/
def Obligations.CycleCapEndsTheRunOnceExceeded : Prop :=
  ∀ (s : State) (cap : Nat), s.inputs = [] → s.running = true → s.stepRun = false → s.idle = false →
    s.stopReq = false → s.cycleCap = some cap →
    (cap < s.cycles → ∃ t, step s = .next t ∧ SameArchitecture { s with running := false } t) ∧
    (s.cycles ≤ cap → readByte s (getReg s s.p) ≠ 0x68 →
      ∃ t, step s = .next t ∧ t.running = true ∧ s.cycles + 2 ≤ t.cycles)

/-- R86, R108 (decisions D8 and D11, log 10; `stepRun` is log 8): in single-step mode a run() clears the stop flag,
executes exactly one instruction and returns, whatever the cap, with the scheduler neither read nor written; when idle
it executes nothing. -/
def Obligations.SingleStepRunExecutesOneInstruction : Prop :=
  ∀ (s : State) (later : List (List HostCall)), s.inputs = [.run] :: later → s.running = false → s.stepMode = true →
    (s.idle = false → ∃ t u, runInstr { s with stopReq := false, running := true, stepRun := true, inputs := later } =
        .next u ∧ step s = .next t ∧ t = { u with running := false } ∧ t.stopReq = false ∧ t.pace = s.pace) ∧
    (s.idle = true → step s = .next { s with stopReq := false, stepRun := true, inputs := later })

/-- R90 with C3 and C7: run() resumes from Stopped at the current R[P], with all state kept but the stop flag and the
scheduler; from Idle it executes nothing and the machine stays Idle. -/
def Obligations.RunResumesFromStoppedButNotFromIdle : Prop :=
  ∀ (s : State) (later : List (List HostCall)), s.inputs = [.run] :: later → s.running = false → s.stepMode = false →
    (runState s = .stopped → capReached s = false → readByte s (getReg s s.p) = 0xC4 →
      ∃ t, step s = .next t ∧ runState t = .running ∧ OneRegister s t s.p (getReg s s.p + 1) ∧
        SameArchitecture { s with
          regs := t.regs, cycles := s.cycles + 3, running := true, stopReq := false, stepRun := false,
          inputs := later } t) ∧
    (runState s = .idle →
      ∃ t, step s = .next t ∧ runState t = .idle ∧
        SameArchitecture { s with stopReq := false, stepRun := false, inputs := later } t)

/-- R22: the cycle counter never decreases within a run, and a step adds at most 3, whatever the host does at the
boundary. -/
def Obligations.CyclesNeverDecreaseWithinARun : Prop :=
  ∀ s t : State, s.running = true → step s = .next t → s.cycles ≤ t.cycles ∧ t.cycles ≤ s.cycles + 3

/-- R53, R51: a store is seen by the very next fetch: after STR through the program counter (MP clear) the byte stored
is the next opcode. -/
def Obligations.StoredByteIsTheNextOpcode : Prop :=
  ∀ (s t : State) (n : Nibble), exec (.str n) s = .next t → s.mp = false → getReg s n = getReg s s.p →
    ∃ b1 b2, fetchInstr t = decodeOp s.d b1 b2

/-! ### Hazards (70_reset_and_hazards.md) -/

/-- R269 (the spec derives it): with X = P, OUT sends the byte after its opcode and the program counter steps over it.
-/
def Obligations.OutWithXEqualPSendsTheNextByte : Prop :=
  ∀ (k : Fin 7) (s : State), s.x = s.p → readByte s (getReg s s.p) = BitVec.ofNat 8 (0x61 + k.val) →
    ∃ t, runInstr s = .next t ∧ t.outPort[k] = readByte s (getReg s s.p + 1) ∧
      OneRegister s t s.p (getReg s s.p + 2)

/-- R270 (the spec derives it): STXD with X = P, and MARK with P = 2, store at the byte after the opcode and put the
program counter back on the opcode. -/
def Obligations.PushThroughTheProgramCounterRepeats : Prop :=
  ∀ s : State,
    (s.x = s.p → readByte s (getReg s s.p) = 0x73 →
      ∃ t, runInstr s = .next t ∧ StoredAt s t (getReg s s.p + 1) s.d ∧ getReg t t.p = getReg s s.p) ∧
    (s.p = 2 → readByte s (getReg s s.p) = 0x79 →
      ∃ t, runInstr s = .next t ∧ StoredAt s t (getReg s s.p + 1) (joinNibbles s.x s.p) ∧
        getReg t t.p = getReg s s.p)

/-! ### Reset and the host interface (60_exceptions.md, 70_reset_and_hazards.md) -/

/-- R260, R261, R263, R265: the host's reset writes IE, X, P, R[0], cycles, idle and Q, tells the observer exactly if
Q was true, and leaves everything else; called twice in a row it does the same as once, without a second event. That
the observer is told is decision D17 of the spec (R263; log 10), that what R261 lists is all that stays is the spec's
own derivation. -/
def Obligations.ResetWritesSevenThingsOnly : Prop :=
  ∀ s : State, s.running = false → ∃ t, hostCall .reset s = .ok t ∧
    OneRegister s t 0 0 ∧ t.ie = true ∧ t.x = 0 ∧ t.p = 0 ∧ t.cycles = 0 ∧ t.idle = false ∧ t.q = false ∧
    (s.q = false → t.events = s.events) ∧ (s.q = true → t.events = s.events ++ [.qChanged false]) ∧
    t = { s with
      regs := t.regs, ie := t.ie, x := t.x, p := t.p, cycles := t.cycles, idle := t.idle, q := t.q, events := t.events } ∧
    hostCall .reset t = .ok t

/-- R33, R264, R50 (`INIT` is decision D6; that `State.reset` is one of these states, with zeros, is logs 1, 2, 3, 8):
the state right after reset, as far as the spec fixes it, from whatever `INIT` the machine was constructed: the entry
point is address 0, X = P = 0, IE = 1, Q off, no cycles, not idle, and the power-on defaults; `State.reset` is one of
these states. -/
def Obligations.ResetStateIsAsTheSpecSays : Prop :=
  (∀ init : Init, ∃ t, hostCall .reset (State.construct init) = .ok t ∧
    getReg t t.p = 0 ∧ t.p = 0 ∧ t.x = 0 ∧ t.ie = true ∧ t.q = false ∧ t.cycles = 0 ∧ t.idle = false ∧
    t.stopReq = false ∧ t.running = false ∧ t.stepMode = false ∧ t.cycleCap = none ∧ t.mp = false ∧
    t.fault = none ∧ t.observer = none ∧ runState t = .stopped ∧
    t.d = init.d ∧ t.df = init.df ∧ t.t = init.t ∧ t.ef = init.ef ∧ t.mem = init.mem ∧
    (∀ m, m ≠ 0 → getReg t m = init.regs[m.toNat])) ∧
  ∃ (init : Init) (t : State), hostCall .reset (State.construct init) = .ok t ∧
    State.reset = { t with inputs := [[.run]] }

/-- R253, R265 (the refusal is logs 3 and 13; decisions D11, D13, D19): while a run is in progress, run, reset, the
cap setter, every write of memory, MP, output ports and Q, and the observer's registration are refused, and so is the
step at whose boundary one of them stands first. -/
def Obligations.ForbiddenHostCallsAreRefusedDuringARun : Prop :=
  ∀ (s : State) (c : HostCall) (cs : List HostCall) (later : List (List HostCall)),
    s.running = true → s.inputs = (c :: cs) :: later →
    (c = .reset ∨ c = .run ∨ (∃ v, c = .setCycleCap v) ∨ (∃ a v, c = .setByte a v) ∨ (∃ o bs, c = .setBytes o bs) ∨
      (∃ b, c = .setWriteProtect b) ∨ (∃ i v, c = .setOutPort i v) ∨ (∃ b, c = .setQ b) ∨
      ∃ o, c = .registerObserver o) →
    hostCall c s = .error (.hostCallDuringRun c) ∧ step s = .refused (.hostCallDuringRun c)

/-- R255, R43, R242, R215, R219, R254 (decision D18; log 13): an index, address or offset outside its domain is refused:
by every host write that has one (by the two that may come during a run, also then) and by every host read that has
one. -/
def Obligations.OutOfRangeArgumentsAreRefused : Prop :=
  ∀ (s : State) (i : Int) (v : Byte) (b : Bool) (bs : List Byte),
    ((i < 0 ∨ 4 ≤ i) → hostCall (.setExternalFlag i b) s = .error (.argumentOutOfRange (.setExternalFlag i b))) ∧
    ((i < 0 ∨ 7 ≤ i) → hostCall (.setInPort i v) s = .error (.argumentOutOfRange (.setInPort i v))) ∧
    (s.running = false →
      ((i < 0 ∨ 7 ≤ i) → hostCall (.setOutPort i v) s = .error (.argumentOutOfRange (.setOutPort i v)) ∧
        hostQuery (.getInPort i) s = .error (.readOutOfRange (.getInPort i)) ∧
        hostQuery (.getOutPort i) s = .error (.readOutOfRange (.getOutPort i))) ∧
      ((i < 0 ∨ 65536 ≤ i) → hostCall (.setByte i v) s = .error (.argumentOutOfRange (.setByte i v)) ∧
        hostCall (.setBytes i bs) s = .error (.argumentOutOfRange (.setBytes i bs)) ∧
        hostQuery (.getByte i) s = .error (.readOutOfRange (.getByte i)) ∧
        hostQuery (.getUnsignedByte i) s = .error (.readOutOfRange (.getUnsignedByte i))) ∧
      ((i < 0 ∨ 16 ≤ i) → hostQuery (.getR i) s = .error (.readOutOfRange (.getR i))))

/-- R43, R268 (clipped means discarded: decision D18, log 10): the bulk write puts byte k at offset + k, discards what
would land beyond the end of memory, and changes nothing else; while MP is set it changes nothing at all. -/
def Obligations.SetBytesIsClippedToMemory : Prop :=
  ∀ (s : State) (offset : Nat) (bs : List Byte), s.running = false → offset < 65536 →
    ∃ t, hostCall (.setBytes offset bs) s = .ok t ∧ t = { s with mem := t.mem } ∧
      (s.mp = true → t = s) ∧
      (s.mp = false → ∀ a : Word,
        (∀ v, offset ≤ a.toNat → bs[a.toNat - offset]? = some v → readByte t a = v) ∧
        (a.toNat < offset ∨ offset + bs.length ≤ a.toNat → readByte t a = readByte s a))

/-- R242, R20, R168 to R171, R54 (index and polarity: decision D14, log 10): setExternalFlag i asserts EF(i+1), also
during a run, and B(i+1), the opcode 34 + i, is then taken; released, it is not. -/
def Obligations.ExternalFlagIndexSelectsTheBranch : Prop :=
  ∀ (s : State) (i : Fin 4) (asserted : Bool) (b : Byte),
    ∃ t u, hostCall (.setExternalFlag i.val asserted) s = .ok t ∧ t = { s with ef := t.ef } ∧
      (∀ j : Fin 4, t.ef[j] = if j = i then asserted else s.ef[j]) ∧
      exec (decodeOp (BitVec.ofNat 8 (0x34 + i.val)) b 0) t = .next u ∧
      ShortBranchEffect (asserted = true) b t u

/-- R252 (its read operations), R253, R254, R89: with no run in progress every host read returns its variable:
getUnsignedByte the byte as 0..255, getByte the same eight bits as a signed value (decision D18, log 10). isStop and
isIdle are answered at any time; every other read during a run is refused, since the spec promises nothing about its
value (decision D13; the refusal is log 13). -/
def Obligations.HostReadsReturnTheState : Prop :=
  ∀ s : State,
    hostQuery .isStop s = .ok (.bool s.stopReq) ∧ hostQuery .isIdle s = .ok (.bool s.idle) ∧
    (s.running = false →
      hostQuery .getD s = .ok (.byte s.d) ∧ hostQuery .getDF s = .ok (.bool s.df) ∧
      hostQuery .getX s = .ok (.nibble s.x) ∧ hostQuery .getP s = .ok (.nibble s.p) ∧
      hostQuery .getIE s = .ok (.bool s.ie) ∧ hostQuery .getT s = .ok (.byte s.t) ∧
      (∀ n : Nibble, hostQuery (.getR n.toNat) s = .ok (.word (getReg s n))) ∧
      hostQuery .getCycles s = .ok (.nat s.cycles) ∧ hostQuery .isWriteProtected s = .ok (.bool s.mp) ∧
      hostQuery .isQOn s = .ok (.bool s.q) ∧
      (∀ k : Fin 7, hostQuery (.getInPort k.val) s = .ok (.byte s.inPort[k]) ∧
        hostQuery (.getOutPort k.val) s = .ok (.byte s.outPort[k])) ∧
      ∀ a : Word, hostQuery (.getUnsignedByte a.toNat) s = .ok (.byte (readByte s a)) ∧
        ∃ v : Int, hostQuery (.getByte a.toNat) s = .ok (.signed v) ∧ -128 ≤ v ∧ v ≤ 127 ∧
          v % 256 = (readByte s a).toNat) ∧
    (s.running = true → ∀ r : HostQuery, r ≠ .isStop → r ≠ .isIdle → hostQuery r s = .error (.readDuringRun r))

/-! ### Memory's canonical form -/

/-- At reset memory is in its canonical form and the event trace tells of nothing: the two invariants hold there. This
rests on the model's empty memory list and zero ports, which R33 leaves to `INIT` (logs 1 and 2). -/
def Obligations.ResetMeetsTheInvariants : Prop := MemoryCanonical State.reset ∧ TraceIsEdgeTriggered State.reset

/-- Every step, with whatever host calls, keeps memory in its canonical form (addresses of the machine, strictly
rising, no entry equal to what an unlisted address reads as), so that equal memories are equal data (R40, R51). -/
def Obligations.StepKeepsMemoryCanonical : Prop :=
  ∀ s t : State, MemoryCanonical s → step s = .next t → MemoryCanonical t

/-! ### Encoding (30_encoding.md) -/

/-- R61 to R65: decoding the encoding of a well-formed instruction, with any bytes after it, gives it back with those
bytes left over: every operand at every value. -/
def Obligations.DecodeOfEncodeIsTheInstruction : Prop :=
  ∀ (i : Instr) (rest : List Byte), i.wellFormed = true → decode (encode i ++ rest) = .ok (i, rest)

/-- R65, R68: and the other way: what decodes is well-formed, and its encoding is the bytes that were taken; decoding
fails only for want of bytes. -/
def Obligations.EncodeOfDecodeIsTheBytes : Prop :=
  ∀ bytes : List Byte,
    (∀ i rest, decode bytes = .ok (i, rest) → i.wellFormed = true ∧ encode i ++ rest = bytes) ∧
    (3 ≤ bytes.length → ∃ i rest, decode bytes = .ok (i, rest))

/-- R65, R61: words written out from the opcode map, one of every family, decode to the instructions they stand for.
-/
def Obligations.SomeWordsDecodeAsTheMapSays : Prop :=
  decodeTableWord 8 0x00 = some .idl ∧ decodeTableWord 8 0x0F = some (.ldn 15) ∧
  decodeTableWord 16 0x553A = some (.bnz 0x55) ∧ decodeTableWord 8 0x64 = some .out4 ∧
  decodeTableWord 8 0x68 = some .undefined ∧ decodeTableWord 8 0x6C = some .inp4 ∧
  decodeTableWord 8 0x7B = some .seq ∧ decodeTableWord 8 0xD3 = some (.sep 3) ∧
  decodeTableWord 24 0x3412C0 = some (.lbr 0x1234) ∧ decodeTableWord 8 0xCE = some .lsz ∧
  decodeTableWord 16 0x55F8 = some (.ldi 0x55) ∧ decodeTableWord 8 0xF5 = some .sd

/-! ### The pacing scheduler (41_pacing_scheduler.md) -/

/-- R102, R106 (decision D9; log 4): a checkpoint with a known clock. Not due: nothing changes. Due, and the clock has
moved or a stop is requested: the spent budget is taken from the count, the next budget is 224 times the elapsed
milliseconds, the sample is the new checkpoint. Due, no stop, and the clock stands: the CPU's turn is a wait that
changes nothing. -/
def Obligations.CheckpointRecomputesTheBudget : Prop :=
  ∀ s : State,
    (s.pace.count ≤ s.pace.budget → paceCheckpoint true s = s ∧ paceWaits true s = false) ∧
    (s.pace.budget < s.pace.count → (s.clockMs ≠ s.pace.lastMs ∨ s.stopReq = true) →
      paceWaits true s = false ∧
      paceCheckpoint true s = { s with pace :=
        ⟨s.pace.count - s.pace.budget, 224 * (s.clockMs - s.pace.lastMs), s.clockMs⟩ }) ∧
    (s.pace.budget < s.pace.count → s.clockMs = s.pace.lastMs → s.stopReq = false → s.running = true →
      s.stepRun = false → cpuTurn true s = .next s)

/-- R105 (the scheduler's details are decision D9, log 10; the clock past the inputs is log 5): emulated time never
runs ahead of the wall clock by more than the overshoot of one instruction. From the entry of a run (not single-step),
over any number of steps, with any host calls but run() in between and whatever the clock does: while the run lasts,
the cycles executed since its entry are at most 224 times the milliseconds passed, plus 3. -/
def Obligations.EmulatedTimeNeverRunsAhead : Prop :=
  ∀ (n : Nat) (s0 t : State), s0.running = true → s0.stepRun = false →
    s0.pace = { count := 0, budget := 0, lastMs := s0.clockMs } → (∀ calls ∈ s0.inputs, .run ∉ calls) →
    Sys2Proof.core.run n s0 = .next t → t.running = true →
    s0.clockMs ≤ t.clockMs ∧ t.cycles ≤ s0.cycles + 224 * (t.clockMs - s0.clockMs) + 3

/-- R107: the scheduler has no architectural effect. Of two states that differ only in the scheduler's variables and
the clock: with no inputs pending, so on the free clock that always advances (log 5), any number of steps leads to
states that differ only in these; the host's calls at a boundary have the same answers in both, and lead to states that
differ only in these; a turn of the CPU, the clock known or free, is a wait of the scheduler, which changes nothing
(log 4), or it leads from both to states that differ only in these. With inputs pending the two need not wait at the
same boundaries, so that the pairing of host calls with instructions may differ, as R107 says. -/
def Obligations.PacingHasNoArchitecturalEffect : Prop :=
  ∀ s t : State, SameArchitecture s t →
    (s.inputs = [] → ∀ n : Nat,
      ∃ s' t', Sys2Proof.core.run n s = .next s' ∧ Sys2Proof.core.run n t = .next t' ∧ SameArchitecture s' t') ∧
    (∀ calls : List HostCall,
      (∀ s', hostCalls calls s = .ok s' → ∃ t', hostCalls calls t = .ok t' ∧ SameArchitecture s' t') ∧
      (∀ r, hostCalls calls s = .error r → hostCalls calls t = .error r)) ∧
    (∀ known known' : Bool,
      (s.running = true → s.stepRun = false → paceWaits known s = true → cpuTurn known s = .next s) ∧
      ((s.running = true → s.stepRun = false → paceWaits known s = false ∧ paceWaits known' t = false) →
        ∃ s' t', cpuTurn known s = .next s' ∧ cpuTurn known' t = .next t' ∧ SameArchitecture s' t'))
end

