-- ==== Sys2Proof/Laws/State.lean ====
section
/-! SUPPORT. One lemma per field per update: what each named update does to each field of State. The updates that are
compositions of these (stepUp, loadAdvance, shortBranch, …) are unfolded to them by the lemmas of Laws/Ops.lean. -/

namespace Sys2Proof.Machine

/-! ### setReg -/

@[simp] theorem setReg_regs (s : State) (n : Nibble) (v : Word) :
    (setReg s n v).regs = s.regs.set n.toNat v := rfl
@[simp] theorem setReg_d (s : State) (n : Nibble) (v : Word) : (setReg s n v).d = s.d := rfl
@[simp] theorem setReg_df (s : State) (n : Nibble) (v : Word) : (setReg s n v).df = s.df := rfl
@[simp] theorem setReg_t (s : State) (n : Nibble) (v : Word) : (setReg s n v).t = s.t := rfl
@[simp] theorem setReg_p (s : State) (n : Nibble) (v : Word) : (setReg s n v).p = s.p := rfl
@[simp] theorem setReg_x (s : State) (n : Nibble) (v : Word) : (setReg s n v).x = s.x := rfl
@[simp] theorem setReg_ie (s : State) (n : Nibble) (v : Word) : (setReg s n v).ie = s.ie := rfl
@[simp] theorem setReg_ef (s : State) (n : Nibble) (v : Word) : (setReg s n v).ef = s.ef := rfl
@[simp] theorem setReg_q (s : State) (n : Nibble) (v : Word) : (setReg s n v).q = s.q := rfl
@[simp] theorem setReg_cycles (s : State) (n : Nibble) (v : Word) : (setReg s n v).cycles = s.cycles := rfl
@[simp] theorem setReg_idle (s : State) (n : Nibble) (v : Word) : (setReg s n v).idle = s.idle := rfl
@[simp] theorem setReg_stopReq (s : State) (n : Nibble) (v : Word) : (setReg s n v).stopReq = s.stopReq := rfl
@[simp] theorem setReg_running (s : State) (n : Nibble) (v : Word) : (setReg s n v).running = s.running := rfl
@[simp] theorem setReg_stepMode (s : State) (n : Nibble) (v : Word) : (setReg s n v).stepMode = s.stepMode := rfl
@[simp] theorem setReg_stepRun (s : State) (n : Nibble) (v : Word) : (setReg s n v).stepRun = s.stepRun := rfl
@[simp] theorem setReg_cycleCap (s : State) (n : Nibble) (v : Word) : (setReg s n v).cycleCap = s.cycleCap := rfl
@[simp] theorem setReg_mem (s : State) (n : Nibble) (v : Word) : (setReg s n v).mem = s.mem := rfl
@[simp] theorem setReg_mp (s : State) (n : Nibble) (v : Word) : (setReg s n v).mp = s.mp := rfl
@[simp] theorem setReg_inPort (s : State) (n : Nibble) (v : Word) : (setReg s n v).inPort = s.inPort := rfl
@[simp] theorem setReg_outPort (s : State) (n : Nibble) (v : Word) : (setReg s n v).outPort = s.outPort := rfl
@[simp] theorem setReg_observer (s : State) (n : Nibble) (v : Word) : (setReg s n v).observer = s.observer := rfl
@[simp] theorem setReg_events (s : State) (n : Nibble) (v : Word) : (setReg s n v).events = s.events := rfl
@[simp] theorem setReg_pace (s : State) (n : Nibble) (v : Word) : (setReg s n v).pace = s.pace := rfl
@[simp] theorem setReg_fault (s : State) (n : Nibble) (v : Word) : (setReg s n v).fault = s.fault := rfl
@[simp] theorem setReg_clockMs (s : State) (n : Nibble) (v : Word) : (setReg s n v).clockMs = s.clockMs := rfl
@[simp] theorem setReg_clockReads (s : State) (n : Nibble) (v : Word) : (setReg s n v).clockReads = s.clockReads := rfl
@[simp] theorem setReg_inputs (s : State) (n : Nibble) (v : Word) : (setReg s n v).inputs = s.inputs := rfl

/-! ### setD -/

@[simp] theorem setD_regs (s : State) (v : Byte) : (setD s v).regs = s.regs := rfl
@[simp] theorem setD_d (s : State) (v : Byte) :
    (setD s v).d = v := rfl
@[simp] theorem setD_df (s : State) (v : Byte) : (setD s v).df = s.df := rfl
@[simp] theorem setD_t (s : State) (v : Byte) : (setD s v).t = s.t := rfl
@[simp] theorem setD_p (s : State) (v : Byte) : (setD s v).p = s.p := rfl
@[simp] theorem setD_x (s : State) (v : Byte) : (setD s v).x = s.x := rfl
@[simp] theorem setD_ie (s : State) (v : Byte) : (setD s v).ie = s.ie := rfl
@[simp] theorem setD_ef (s : State) (v : Byte) : (setD s v).ef = s.ef := rfl
@[simp] theorem setD_q (s : State) (v : Byte) : (setD s v).q = s.q := rfl
@[simp] theorem setD_cycles (s : State) (v : Byte) : (setD s v).cycles = s.cycles := rfl
@[simp] theorem setD_idle (s : State) (v : Byte) : (setD s v).idle = s.idle := rfl
@[simp] theorem setD_stopReq (s : State) (v : Byte) : (setD s v).stopReq = s.stopReq := rfl
@[simp] theorem setD_running (s : State) (v : Byte) : (setD s v).running = s.running := rfl
@[simp] theorem setD_stepMode (s : State) (v : Byte) : (setD s v).stepMode = s.stepMode := rfl
@[simp] theorem setD_stepRun (s : State) (v : Byte) : (setD s v).stepRun = s.stepRun := rfl
@[simp] theorem setD_cycleCap (s : State) (v : Byte) : (setD s v).cycleCap = s.cycleCap := rfl
@[simp] theorem setD_mem (s : State) (v : Byte) : (setD s v).mem = s.mem := rfl
@[simp] theorem setD_mp (s : State) (v : Byte) : (setD s v).mp = s.mp := rfl
@[simp] theorem setD_inPort (s : State) (v : Byte) : (setD s v).inPort = s.inPort := rfl
@[simp] theorem setD_outPort (s : State) (v : Byte) : (setD s v).outPort = s.outPort := rfl
@[simp] theorem setD_observer (s : State) (v : Byte) : (setD s v).observer = s.observer := rfl
@[simp] theorem setD_events (s : State) (v : Byte) : (setD s v).events = s.events := rfl
@[simp] theorem setD_pace (s : State) (v : Byte) : (setD s v).pace = s.pace := rfl
@[simp] theorem setD_fault (s : State) (v : Byte) : (setD s v).fault = s.fault := rfl
@[simp] theorem setD_clockMs (s : State) (v : Byte) : (setD s v).clockMs = s.clockMs := rfl
@[simp] theorem setD_clockReads (s : State) (v : Byte) : (setD s v).clockReads = s.clockReads := rfl
@[simp] theorem setD_inputs (s : State) (v : Byte) : (setD s v).inputs = s.inputs := rfl

/-! ### setDandDF -/

@[simp] theorem setDandDF_regs (s : State) (r : Byte × Bool) : (setDandDF s r).regs = s.regs := rfl
@[simp] theorem setDandDF_d (s : State) (r : Byte × Bool) :
    (setDandDF s r).d = r.1 := rfl
@[simp] theorem setDandDF_df (s : State) (r : Byte × Bool) :
    (setDandDF s r).df = r.2 := rfl
@[simp] theorem setDandDF_t (s : State) (r : Byte × Bool) : (setDandDF s r).t = s.t := rfl
@[simp] theorem setDandDF_p (s : State) (r : Byte × Bool) : (setDandDF s r).p = s.p := rfl
@[simp] theorem setDandDF_x (s : State) (r : Byte × Bool) : (setDandDF s r).x = s.x := rfl
@[simp] theorem setDandDF_ie (s : State) (r : Byte × Bool) : (setDandDF s r).ie = s.ie := rfl
@[simp] theorem setDandDF_ef (s : State) (r : Byte × Bool) : (setDandDF s r).ef = s.ef := rfl
@[simp] theorem setDandDF_q (s : State) (r : Byte × Bool) : (setDandDF s r).q = s.q := rfl
@[simp] theorem setDandDF_cycles (s : State) (r : Byte × Bool) : (setDandDF s r).cycles = s.cycles := rfl
@[simp] theorem setDandDF_idle (s : State) (r : Byte × Bool) : (setDandDF s r).idle = s.idle := rfl
@[simp] theorem setDandDF_stopReq (s : State) (r : Byte × Bool) : (setDandDF s r).stopReq = s.stopReq := rfl
@[simp] theorem setDandDF_running (s : State) (r : Byte × Bool) : (setDandDF s r).running = s.running := rfl
@[simp] theorem setDandDF_stepMode (s : State) (r : Byte × Bool) : (setDandDF s r).stepMode = s.stepMode := rfl
@[simp] theorem setDandDF_stepRun (s : State) (r : Byte × Bool) : (setDandDF s r).stepRun = s.stepRun := rfl
@[simp] theorem setDandDF_cycleCap (s : State) (r : Byte × Bool) : (setDandDF s r).cycleCap = s.cycleCap := rfl
@[simp] theorem setDandDF_mem (s : State) (r : Byte × Bool) : (setDandDF s r).mem = s.mem := rfl
@[simp] theorem setDandDF_mp (s : State) (r : Byte × Bool) : (setDandDF s r).mp = s.mp := rfl
@[simp] theorem setDandDF_inPort (s : State) (r : Byte × Bool) : (setDandDF s r).inPort = s.inPort := rfl
@[simp] theorem setDandDF_outPort (s : State) (r : Byte × Bool) : (setDandDF s r).outPort = s.outPort := rfl
@[simp] theorem setDandDF_observer (s : State) (r : Byte × Bool) : (setDandDF s r).observer = s.observer := rfl
@[simp] theorem setDandDF_events (s : State) (r : Byte × Bool) : (setDandDF s r).events = s.events := rfl
@[simp] theorem setDandDF_pace (s : State) (r : Byte × Bool) : (setDandDF s r).pace = s.pace := rfl
@[simp] theorem setDandDF_fault (s : State) (r : Byte × Bool) : (setDandDF s r).fault = s.fault := rfl
@[simp] theorem setDandDF_clockMs (s : State) (r : Byte × Bool) : (setDandDF s r).clockMs = s.clockMs := rfl
@[simp] theorem setDandDF_clockReads (s : State) (r : Byte × Bool) : (setDandDF s r).clockReads = s.clockReads := rfl
@[simp] theorem setDandDF_inputs (s : State) (r : Byte × Bool) : (setDandDF s r).inputs = s.inputs := rfl

/-! ### writeByte -/

@[simp] theorem writeByte_regs (s : State) (a : Word) (v : Byte) : (writeByte s a v).regs = s.regs := by unfold writeByte; split <;> rfl
@[simp] theorem writeByte_d (s : State) (a : Word) (v : Byte) : (writeByte s a v).d = s.d := by unfold writeByte; split <;> rfl
@[simp] theorem writeByte_df (s : State) (a : Word) (v : Byte) : (writeByte s a v).df = s.df := by unfold writeByte; split <;> rfl
@[simp] theorem writeByte_t (s : State) (a : Word) (v : Byte) : (writeByte s a v).t = s.t := by unfold writeByte; split <;> rfl
@[simp] theorem writeByte_p (s : State) (a : Word) (v : Byte) : (writeByte s a v).p = s.p := by unfold writeByte; split <;> rfl
@[simp] theorem writeByte_x (s : State) (a : Word) (v : Byte) : (writeByte s a v).x = s.x := by unfold writeByte; split <;> rfl
@[simp] theorem writeByte_ie (s : State) (a : Word) (v : Byte) : (writeByte s a v).ie = s.ie := by unfold writeByte; split <;> rfl
@[simp] theorem writeByte_ef (s : State) (a : Word) (v : Byte) : (writeByte s a v).ef = s.ef := by unfold writeByte; split <;> rfl
@[simp] theorem writeByte_q (s : State) (a : Word) (v : Byte) : (writeByte s a v).q = s.q := by unfold writeByte; split <;> rfl
@[simp] theorem writeByte_cycles (s : State) (a : Word) (v : Byte) : (writeByte s a v).cycles = s.cycles := by unfold writeByte; split <;> rfl
@[simp] theorem writeByte_idle (s : State) (a : Word) (v : Byte) : (writeByte s a v).idle = s.idle := by unfold writeByte; split <;> rfl
@[simp] theorem writeByte_stopReq (s : State) (a : Word) (v : Byte) : (writeByte s a v).stopReq = s.stopReq := by unfold writeByte; split <;> rfl
@[simp] theorem writeByte_running (s : State) (a : Word) (v : Byte) : (writeByte s a v).running = s.running := by unfold writeByte; split <;> rfl
@[simp] theorem writeByte_stepMode (s : State) (a : Word) (v : Byte) : (writeByte s a v).stepMode = s.stepMode := by unfold writeByte; split <;> rfl
@[simp] theorem writeByte_stepRun (s : State) (a : Word) (v : Byte) : (writeByte s a v).stepRun = s.stepRun := by unfold writeByte; split <;> rfl
@[simp] theorem writeByte_cycleCap (s : State) (a : Word) (v : Byte) : (writeByte s a v).cycleCap = s.cycleCap := by unfold writeByte; split <;> rfl
@[simp] theorem writeByte_mem (s : State) (a : Word) (v : Byte) :
    (writeByte s a v).mem = if s.mp then s.mem else Memory.write s.mem a.toNat v := by unfold writeByte; split <;> rfl
@[simp] theorem writeByte_mp (s : State) (a : Word) (v : Byte) : (writeByte s a v).mp = s.mp := by unfold writeByte; split <;> rfl
@[simp] theorem writeByte_inPort (s : State) (a : Word) (v : Byte) : (writeByte s a v).inPort = s.inPort := by unfold writeByte; split <;> rfl
@[simp] theorem writeByte_outPort (s : State) (a : Word) (v : Byte) : (writeByte s a v).outPort = s.outPort := by unfold writeByte; split <;> rfl
@[simp] theorem writeByte_observer (s : State) (a : Word) (v : Byte) : (writeByte s a v).observer = s.observer := by unfold writeByte; split <;> rfl
@[simp] theorem writeByte_events (s : State) (a : Word) (v : Byte) : (writeByte s a v).events = s.events := by unfold writeByte; split <;> rfl
@[simp] theorem writeByte_pace (s : State) (a : Word) (v : Byte) : (writeByte s a v).pace = s.pace := by unfold writeByte; split <;> rfl
@[simp] theorem writeByte_fault (s : State) (a : Word) (v : Byte) : (writeByte s a v).fault = s.fault := by unfold writeByte; split <;> rfl
@[simp] theorem writeByte_clockMs (s : State) (a : Word) (v : Byte) : (writeByte s a v).clockMs = s.clockMs := by unfold writeByte; split <;> rfl
@[simp] theorem writeByte_clockReads (s : State) (a : Word) (v : Byte) : (writeByte s a v).clockReads = s.clockReads := by unfold writeByte; split <;> rfl
@[simp] theorem writeByte_inputs (s : State) (a : Word) (v : Byte) : (writeByte s a v).inputs = s.inputs := by unfold writeByte; split <;> rfl

/-! ### qWrite -/

@[simp] theorem qWrite_regs (s : State) (b : Bool) : (qWrite s b).regs = s.regs := by unfold qWrite; split <;> rfl
@[simp] theorem qWrite_d (s : State) (b : Bool) : (qWrite s b).d = s.d := by unfold qWrite; split <;> rfl
@[simp] theorem qWrite_df (s : State) (b : Bool) : (qWrite s b).df = s.df := by unfold qWrite; split <;> rfl
@[simp] theorem qWrite_t (s : State) (b : Bool) : (qWrite s b).t = s.t := by unfold qWrite; split <;> rfl
@[simp] theorem qWrite_p (s : State) (b : Bool) : (qWrite s b).p = s.p := by unfold qWrite; split <;> rfl
@[simp] theorem qWrite_x (s : State) (b : Bool) : (qWrite s b).x = s.x := by unfold qWrite; split <;> rfl
@[simp] theorem qWrite_ie (s : State) (b : Bool) : (qWrite s b).ie = s.ie := by unfold qWrite; split <;> rfl
@[simp] theorem qWrite_ef (s : State) (b : Bool) : (qWrite s b).ef = s.ef := by unfold qWrite; split <;> rfl
@[simp] theorem qWrite_q (s : State) (b : Bool) :
    (qWrite s b).q = b := by unfold qWrite; split <;> simp_all
@[simp] theorem qWrite_cycles (s : State) (b : Bool) : (qWrite s b).cycles = s.cycles := by unfold qWrite; split <;> rfl
@[simp] theorem qWrite_idle (s : State) (b : Bool) : (qWrite s b).idle = s.idle := by unfold qWrite; split <;> rfl
@[simp] theorem qWrite_stopReq (s : State) (b : Bool) : (qWrite s b).stopReq = s.stopReq := by unfold qWrite; split <;> rfl
@[simp] theorem qWrite_running (s : State) (b : Bool) : (qWrite s b).running = s.running := by unfold qWrite; split <;> rfl
@[simp] theorem qWrite_stepMode (s : State) (b : Bool) : (qWrite s b).stepMode = s.stepMode := by unfold qWrite; split <;> rfl
@[simp] theorem qWrite_stepRun (s : State) (b : Bool) : (qWrite s b).stepRun = s.stepRun := by unfold qWrite; split <;> rfl
@[simp] theorem qWrite_cycleCap (s : State) (b : Bool) : (qWrite s b).cycleCap = s.cycleCap := by unfold qWrite; split <;> rfl
@[simp] theorem qWrite_mem (s : State) (b : Bool) : (qWrite s b).mem = s.mem := by unfold qWrite; split <;> rfl
@[simp] theorem qWrite_mp (s : State) (b : Bool) : (qWrite s b).mp = s.mp := by unfold qWrite; split <;> rfl
@[simp] theorem qWrite_inPort (s : State) (b : Bool) : (qWrite s b).inPort = s.inPort := by unfold qWrite; split <;> rfl
@[simp] theorem qWrite_outPort (s : State) (b : Bool) : (qWrite s b).outPort = s.outPort := by unfold qWrite; split <;> rfl
@[simp] theorem qWrite_observer (s : State) (b : Bool) : (qWrite s b).observer = s.observer := by unfold qWrite; split <;> rfl
@[simp] theorem qWrite_events (s : State) (b : Bool) :
    (qWrite s b).events = if s.q = b then s.events else s.events ++ [.qChanged b] := by unfold qWrite; split <;> rfl
@[simp] theorem qWrite_pace (s : State) (b : Bool) : (qWrite s b).pace = s.pace := by unfold qWrite; split <;> rfl
@[simp] theorem qWrite_fault (s : State) (b : Bool) : (qWrite s b).fault = s.fault := by unfold qWrite; split <;> rfl
@[simp] theorem qWrite_clockMs (s : State) (b : Bool) : (qWrite s b).clockMs = s.clockMs := by unfold qWrite; split <;> rfl
@[simp] theorem qWrite_clockReads (s : State) (b : Bool) : (qWrite s b).clockReads = s.clockReads := by unfold qWrite; split <;> rfl
@[simp] theorem qWrite_inputs (s : State) (b : Bool) : (qWrite s b).inputs = s.inputs := by unfold qWrite; split <;> rfl

/-! ### outPortWrite -/

@[simp] theorem outPortWrite_regs (s : State) (i : Fin 7) (v : Byte) : (outPortWrite s i v).regs = s.regs := by unfold outPortWrite; split <;> rfl
@[simp] theorem outPortWrite_d (s : State) (i : Fin 7) (v : Byte) : (outPortWrite s i v).d = s.d := by unfold outPortWrite; split <;> rfl
@[simp] theorem outPortWrite_df (s : State) (i : Fin 7) (v : Byte) : (outPortWrite s i v).df = s.df := by unfold outPortWrite; split <;> rfl
@[simp] theorem outPortWrite_t (s : State) (i : Fin 7) (v : Byte) : (outPortWrite s i v).t = s.t := by unfold outPortWrite; split <;> rfl
@[simp] theorem outPortWrite_p (s : State) (i : Fin 7) (v : Byte) : (outPortWrite s i v).p = s.p := by unfold outPortWrite; split <;> rfl
@[simp] theorem outPortWrite_x (s : State) (i : Fin 7) (v : Byte) : (outPortWrite s i v).x = s.x := by unfold outPortWrite; split <;> rfl
@[simp] theorem outPortWrite_ie (s : State) (i : Fin 7) (v : Byte) : (outPortWrite s i v).ie = s.ie := by unfold outPortWrite; split <;> rfl
@[simp] theorem outPortWrite_ef (s : State) (i : Fin 7) (v : Byte) : (outPortWrite s i v).ef = s.ef := by unfold outPortWrite; split <;> rfl
@[simp] theorem outPortWrite_q (s : State) (i : Fin 7) (v : Byte) : (outPortWrite s i v).q = s.q := by unfold outPortWrite; split <;> rfl
@[simp] theorem outPortWrite_cycles (s : State) (i : Fin 7) (v : Byte) : (outPortWrite s i v).cycles = s.cycles := by unfold outPortWrite; split <;> rfl
@[simp] theorem outPortWrite_idle (s : State) (i : Fin 7) (v : Byte) : (outPortWrite s i v).idle = s.idle := by unfold outPortWrite; split <;> rfl
@[simp] theorem outPortWrite_stopReq (s : State) (i : Fin 7) (v : Byte) : (outPortWrite s i v).stopReq = s.stopReq := by unfold outPortWrite; split <;> rfl
@[simp] theorem outPortWrite_running (s : State) (i : Fin 7) (v : Byte) : (outPortWrite s i v).running = s.running := by unfold outPortWrite; split <;> rfl
@[simp] theorem outPortWrite_stepMode (s : State) (i : Fin 7) (v : Byte) : (outPortWrite s i v).stepMode = s.stepMode := by unfold outPortWrite; split <;> rfl
@[simp] theorem outPortWrite_stepRun (s : State) (i : Fin 7) (v : Byte) : (outPortWrite s i v).stepRun = s.stepRun := by unfold outPortWrite; split <;> rfl
@[simp] theorem outPortWrite_cycleCap (s : State) (i : Fin 7) (v : Byte) : (outPortWrite s i v).cycleCap = s.cycleCap := by unfold outPortWrite; split <;> rfl
@[simp] theorem outPortWrite_mem (s : State) (i : Fin 7) (v : Byte) : (outPortWrite s i v).mem = s.mem := by unfold outPortWrite; split <;> rfl
@[simp] theorem outPortWrite_mp (s : State) (i : Fin 7) (v : Byte) : (outPortWrite s i v).mp = s.mp := by unfold outPortWrite; split <;> rfl
@[simp] theorem outPortWrite_inPort (s : State) (i : Fin 7) (v : Byte) : (outPortWrite s i v).inPort = s.inPort := by unfold outPortWrite; split <;> rfl
@[simp] theorem outPortWrite_outPort (s : State) (i : Fin 7) (v : Byte) :
    (outPortWrite s i v).outPort = s.outPort.set i v := by
  unfold outPortWrite
  split
  · next h => subst h; exact (Vector.set_getElem_self _).symm
  · rfl
@[simp] theorem outPortWrite_observer (s : State) (i : Fin 7) (v : Byte) : (outPortWrite s i v).observer = s.observer := by unfold outPortWrite; split <;> rfl
@[simp] theorem outPortWrite_events (s : State) (i : Fin 7) (v : Byte) :
    (outPortWrite s i v).events = if s.outPort[i] = v then s.events else s.events ++ [.portChanged i v] := by unfold outPortWrite; split <;> rfl
@[simp] theorem outPortWrite_pace (s : State) (i : Fin 7) (v : Byte) : (outPortWrite s i v).pace = s.pace := by unfold outPortWrite; split <;> rfl
@[simp] theorem outPortWrite_fault (s : State) (i : Fin 7) (v : Byte) : (outPortWrite s i v).fault = s.fault := by unfold outPortWrite; split <;> rfl
@[simp] theorem outPortWrite_clockMs (s : State) (i : Fin 7) (v : Byte) : (outPortWrite s i v).clockMs = s.clockMs := by unfold outPortWrite; split <;> rfl
@[simp] theorem outPortWrite_clockReads (s : State) (i : Fin 7) (v : Byte) : (outPortWrite s i v).clockReads = s.clockReads := by unfold outPortWrite; split <;> rfl
@[simp] theorem outPortWrite_inputs (s : State) (i : Fin 7) (v : Byte) : (outPortWrite s i v).inputs = s.inputs := by unfold outPortWrite; split <;> rfl

/-! ### complete -/

@[simp] theorem complete_regs (i : Instr) (s : State) : (complete i s).regs = s.regs := rfl
@[simp] theorem complete_d (i : Instr) (s : State) : (complete i s).d = s.d := rfl
@[simp] theorem complete_df (i : Instr) (s : State) : (complete i s).df = s.df := rfl
@[simp] theorem complete_t (i : Instr) (s : State) : (complete i s).t = s.t := rfl
@[simp] theorem complete_p (i : Instr) (s : State) : (complete i s).p = s.p := rfl
@[simp] theorem complete_x (i : Instr) (s : State) : (complete i s).x = s.x := rfl
@[simp] theorem complete_ie (i : Instr) (s : State) : (complete i s).ie = s.ie := rfl
@[simp] theorem complete_ef (i : Instr) (s : State) : (complete i s).ef = s.ef := rfl
@[simp] theorem complete_q (i : Instr) (s : State) : (complete i s).q = s.q := rfl
@[simp] theorem complete_cycles (i : Instr) (s : State) :
    (complete i s).cycles = s.cycles + cost i := rfl
@[simp] theorem complete_idle (i : Instr) (s : State) : (complete i s).idle = s.idle := rfl
@[simp] theorem complete_stopReq (i : Instr) (s : State) : (complete i s).stopReq = s.stopReq := rfl
@[simp] theorem complete_running (i : Instr) (s : State) : (complete i s).running = s.running := rfl
@[simp] theorem complete_stepMode (i : Instr) (s : State) : (complete i s).stepMode = s.stepMode := rfl
@[simp] theorem complete_stepRun (i : Instr) (s : State) : (complete i s).stepRun = s.stepRun := rfl
@[simp] theorem complete_cycleCap (i : Instr) (s : State) : (complete i s).cycleCap = s.cycleCap := rfl
@[simp] theorem complete_mem (i : Instr) (s : State) : (complete i s).mem = s.mem := rfl
@[simp] theorem complete_mp (i : Instr) (s : State) : (complete i s).mp = s.mp := rfl
@[simp] theorem complete_inPort (i : Instr) (s : State) : (complete i s).inPort = s.inPort := rfl
@[simp] theorem complete_outPort (i : Instr) (s : State) : (complete i s).outPort = s.outPort := rfl
@[simp] theorem complete_observer (i : Instr) (s : State) : (complete i s).observer = s.observer := rfl
@[simp] theorem complete_events (i : Instr) (s : State) : (complete i s).events = s.events := rfl
@[simp] theorem complete_pace (i : Instr) (s : State) : (complete i s).pace = s.pace := rfl
@[simp] theorem complete_fault (i : Instr) (s : State) : (complete i s).fault = s.fault := rfl
@[simp] theorem complete_clockMs (i : Instr) (s : State) : (complete i s).clockMs = s.clockMs := rfl
@[simp] theorem complete_clockReads (i : Instr) (s : State) : (complete i s).clockReads = s.clockReads := rfl
@[simp] theorem complete_inputs (i : Instr) (s : State) : (complete i s).inputs = s.inputs := rfl

/-! ### takeDecodeFault -/

@[simp] theorem takeDecodeFault_regs (op : Byte) (s : State) : (takeDecodeFault op s).regs = s.regs := rfl
@[simp] theorem takeDecodeFault_d (op : Byte) (s : State) : (takeDecodeFault op s).d = s.d := rfl
@[simp] theorem takeDecodeFault_df (op : Byte) (s : State) : (takeDecodeFault op s).df = s.df := rfl
@[simp] theorem takeDecodeFault_t (op : Byte) (s : State) : (takeDecodeFault op s).t = s.t := rfl
@[simp] theorem takeDecodeFault_p (op : Byte) (s : State) : (takeDecodeFault op s).p = s.p := rfl
@[simp] theorem takeDecodeFault_x (op : Byte) (s : State) : (takeDecodeFault op s).x = s.x := rfl
@[simp] theorem takeDecodeFault_ie (op : Byte) (s : State) : (takeDecodeFault op s).ie = s.ie := rfl
@[simp] theorem takeDecodeFault_ef (op : Byte) (s : State) : (takeDecodeFault op s).ef = s.ef := rfl
@[simp] theorem takeDecodeFault_q (op : Byte) (s : State) : (takeDecodeFault op s).q = s.q := rfl
@[simp] theorem takeDecodeFault_cycles (op : Byte) (s : State) : (takeDecodeFault op s).cycles = s.cycles := rfl
@[simp] theorem takeDecodeFault_idle (op : Byte) (s : State) : (takeDecodeFault op s).idle = s.idle := rfl
@[simp] theorem takeDecodeFault_stopReq (op : Byte) (s : State) : (takeDecodeFault op s).stopReq = s.stopReq := rfl
@[simp] theorem takeDecodeFault_running (op : Byte) (s : State) :
    (takeDecodeFault op s).running = false := rfl
@[simp] theorem takeDecodeFault_stepMode (op : Byte) (s : State) : (takeDecodeFault op s).stepMode = s.stepMode := rfl
@[simp] theorem takeDecodeFault_stepRun (op : Byte) (s : State) : (takeDecodeFault op s).stepRun = s.stepRun := rfl
@[simp] theorem takeDecodeFault_cycleCap (op : Byte) (s : State) : (takeDecodeFault op s).cycleCap = s.cycleCap := rfl
@[simp] theorem takeDecodeFault_mem (op : Byte) (s : State) : (takeDecodeFault op s).mem = s.mem := rfl
@[simp] theorem takeDecodeFault_mp (op : Byte) (s : State) : (takeDecodeFault op s).mp = s.mp := rfl
@[simp] theorem takeDecodeFault_inPort (op : Byte) (s : State) : (takeDecodeFault op s).inPort = s.inPort := rfl
@[simp] theorem takeDecodeFault_outPort (op : Byte) (s : State) : (takeDecodeFault op s).outPort = s.outPort := rfl
@[simp] theorem takeDecodeFault_observer (op : Byte) (s : State) : (takeDecodeFault op s).observer = s.observer := rfl
@[simp] theorem takeDecodeFault_events (op : Byte) (s : State) : (takeDecodeFault op s).events = s.events := rfl
@[simp] theorem takeDecodeFault_pace (op : Byte) (s : State) : (takeDecodeFault op s).pace = s.pace := rfl
@[simp] theorem takeDecodeFault_fault (op : Byte) (s : State) :
    (takeDecodeFault op s).fault = some op := rfl
@[simp] theorem takeDecodeFault_clockMs (op : Byte) (s : State) : (takeDecodeFault op s).clockMs = s.clockMs := rfl
@[simp] theorem takeDecodeFault_clockReads (op : Byte) (s : State) : (takeDecodeFault op s).clockReads = s.clockReads := rfl
@[simp] theorem takeDecodeFault_inputs (op : Byte) (s : State) : (takeDecodeFault op s).inputs = s.inputs := rfl

/-! ### endRun -/

@[simp] theorem endRun_regs (s : State) : (endRun s).regs = s.regs := rfl
@[simp] theorem endRun_d (s : State) : (endRun s).d = s.d := rfl
@[simp] theorem endRun_df (s : State) : (endRun s).df = s.df := rfl
@[simp] theorem endRun_t (s : State) : (endRun s).t = s.t := rfl
@[simp] theorem endRun_p (s : State) : (endRun s).p = s.p := rfl
@[simp] theorem endRun_x (s : State) : (endRun s).x = s.x := rfl
@[simp] theorem endRun_ie (s : State) : (endRun s).ie = s.ie := rfl
@[simp] theorem endRun_ef (s : State) : (endRun s).ef = s.ef := rfl
@[simp] theorem endRun_q (s : State) : (endRun s).q = s.q := rfl
@[simp] theorem endRun_cycles (s : State) : (endRun s).cycles = s.cycles := rfl
@[simp] theorem endRun_idle (s : State) : (endRun s).idle = s.idle := rfl
@[simp] theorem endRun_stopReq (s : State) : (endRun s).stopReq = s.stopReq := rfl
@[simp] theorem endRun_running (s : State) :
    (endRun s).running = false := rfl
@[simp] theorem endRun_stepMode (s : State) : (endRun s).stepMode = s.stepMode := rfl
@[simp] theorem endRun_stepRun (s : State) : (endRun s).stepRun = s.stepRun := rfl
@[simp] theorem endRun_cycleCap (s : State) : (endRun s).cycleCap = s.cycleCap := rfl
@[simp] theorem endRun_mem (s : State) : (endRun s).mem = s.mem := rfl
@[simp] theorem endRun_mp (s : State) : (endRun s).mp = s.mp := rfl
@[simp] theorem endRun_inPort (s : State) : (endRun s).inPort = s.inPort := rfl
@[simp] theorem endRun_outPort (s : State) : (endRun s).outPort = s.outPort := rfl
@[simp] theorem endRun_observer (s : State) : (endRun s).observer = s.observer := rfl
@[simp] theorem endRun_events (s : State) : (endRun s).events = s.events := rfl
@[simp] theorem endRun_pace (s : State) : (endRun s).pace = s.pace := rfl
@[simp] theorem endRun_fault (s : State) : (endRun s).fault = s.fault := rfl
@[simp] theorem endRun_clockMs (s : State) : (endRun s).clockMs = s.clockMs := rfl
@[simp] theorem endRun_clockReads (s : State) : (endRun s).clockReads = s.clockReads := rfl
@[simp] theorem endRun_inputs (s : State) : (endRun s).inputs = s.inputs := rfl

/-! ### paceInit -/

@[simp] theorem paceInit_regs (s : State) : (paceInit s).regs = s.regs := rfl
@[simp] theorem paceInit_d (s : State) : (paceInit s).d = s.d := rfl
@[simp] theorem paceInit_df (s : State) : (paceInit s).df = s.df := rfl
@[simp] theorem paceInit_t (s : State) : (paceInit s).t = s.t := rfl
@[simp] theorem paceInit_p (s : State) : (paceInit s).p = s.p := rfl
@[simp] theorem paceInit_x (s : State) : (paceInit s).x = s.x := rfl
@[simp] theorem paceInit_ie (s : State) : (paceInit s).ie = s.ie := rfl
@[simp] theorem paceInit_ef (s : State) : (paceInit s).ef = s.ef := rfl
@[simp] theorem paceInit_q (s : State) : (paceInit s).q = s.q := rfl
@[simp] theorem paceInit_cycles (s : State) : (paceInit s).cycles = s.cycles := rfl
@[simp] theorem paceInit_idle (s : State) : (paceInit s).idle = s.idle := rfl
@[simp] theorem paceInit_stopReq (s : State) : (paceInit s).stopReq = s.stopReq := rfl
@[simp] theorem paceInit_running (s : State) : (paceInit s).running = s.running := rfl
@[simp] theorem paceInit_stepMode (s : State) : (paceInit s).stepMode = s.stepMode := rfl
@[simp] theorem paceInit_stepRun (s : State) : (paceInit s).stepRun = s.stepRun := rfl
@[simp] theorem paceInit_cycleCap (s : State) : (paceInit s).cycleCap = s.cycleCap := rfl
@[simp] theorem paceInit_mem (s : State) : (paceInit s).mem = s.mem := rfl
@[simp] theorem paceInit_mp (s : State) : (paceInit s).mp = s.mp := rfl
@[simp] theorem paceInit_inPort (s : State) : (paceInit s).inPort = s.inPort := rfl
@[simp] theorem paceInit_outPort (s : State) : (paceInit s).outPort = s.outPort := rfl
@[simp] theorem paceInit_observer (s : State) : (paceInit s).observer = s.observer := rfl
@[simp] theorem paceInit_events (s : State) : (paceInit s).events = s.events := rfl
@[simp] theorem paceInit_pace (s : State) :
    (paceInit s).pace = { count := 0, budget := 0, lastMs := s.clockMs } := rfl
@[simp] theorem paceInit_fault (s : State) : (paceInit s).fault = s.fault := rfl
@[simp] theorem paceInit_clockMs (s : State) : (paceInit s).clockMs = s.clockMs := rfl
@[simp] theorem paceInit_clockReads (s : State) : (paceInit s).clockReads = s.clockReads := rfl
@[simp] theorem paceInit_inputs (s : State) : (paceInit s).inputs = s.inputs := rfl

/-! ### paceCharge -/

@[simp] theorem paceCharge_regs (c : Nat) (s : State) : (paceCharge c s).regs = s.regs := rfl
@[simp] theorem paceCharge_d (c : Nat) (s : State) : (paceCharge c s).d = s.d := rfl
@[simp] theorem paceCharge_df (c : Nat) (s : State) : (paceCharge c s).df = s.df := rfl
@[simp] theorem paceCharge_t (c : Nat) (s : State) : (paceCharge c s).t = s.t := rfl
@[simp] theorem paceCharge_p (c : Nat) (s : State) : (paceCharge c s).p = s.p := rfl
@[simp] theorem paceCharge_x (c : Nat) (s : State) : (paceCharge c s).x = s.x := rfl
@[simp] theorem paceCharge_ie (c : Nat) (s : State) : (paceCharge c s).ie = s.ie := rfl
@[simp] theorem paceCharge_ef (c : Nat) (s : State) : (paceCharge c s).ef = s.ef := rfl
@[simp] theorem paceCharge_q (c : Nat) (s : State) : (paceCharge c s).q = s.q := rfl
@[simp] theorem paceCharge_cycles (c : Nat) (s : State) : (paceCharge c s).cycles = s.cycles := rfl
@[simp] theorem paceCharge_idle (c : Nat) (s : State) : (paceCharge c s).idle = s.idle := rfl
@[simp] theorem paceCharge_stopReq (c : Nat) (s : State) : (paceCharge c s).stopReq = s.stopReq := rfl
@[simp] theorem paceCharge_running (c : Nat) (s : State) : (paceCharge c s).running = s.running := rfl
@[simp] theorem paceCharge_stepMode (c : Nat) (s : State) : (paceCharge c s).stepMode = s.stepMode := rfl
@[simp] theorem paceCharge_stepRun (c : Nat) (s : State) : (paceCharge c s).stepRun = s.stepRun := rfl
@[simp] theorem paceCharge_cycleCap (c : Nat) (s : State) : (paceCharge c s).cycleCap = s.cycleCap := rfl
@[simp] theorem paceCharge_mem (c : Nat) (s : State) : (paceCharge c s).mem = s.mem := rfl
@[simp] theorem paceCharge_mp (c : Nat) (s : State) : (paceCharge c s).mp = s.mp := rfl
@[simp] theorem paceCharge_inPort (c : Nat) (s : State) : (paceCharge c s).inPort = s.inPort := rfl
@[simp] theorem paceCharge_outPort (c : Nat) (s : State) : (paceCharge c s).outPort = s.outPort := rfl
@[simp] theorem paceCharge_observer (c : Nat) (s : State) : (paceCharge c s).observer = s.observer := rfl
@[simp] theorem paceCharge_events (c : Nat) (s : State) : (paceCharge c s).events = s.events := rfl
@[simp] theorem paceCharge_pace (c : Nat) (s : State) :
    (paceCharge c s).pace = { s.pace with count := s.pace.count + c } := rfl
@[simp] theorem paceCharge_fault (c : Nat) (s : State) : (paceCharge c s).fault = s.fault := rfl
@[simp] theorem paceCharge_clockMs (c : Nat) (s : State) : (paceCharge c s).clockMs = s.clockMs := rfl
@[simp] theorem paceCharge_clockReads (c : Nat) (s : State) : (paceCharge c s).clockReads = s.clockReads := rfl
@[simp] theorem paceCharge_inputs (c : Nat) (s : State) : (paceCharge c s).inputs = s.inputs := rfl

/-! ### paceCheckpoint -/

@[simp] theorem paceCheckpoint_regs (known : Bool) (s : State) : (paceCheckpoint known s).regs = s.regs := rfl
@[simp] theorem paceCheckpoint_d (known : Bool) (s : State) : (paceCheckpoint known s).d = s.d := rfl
@[simp] theorem paceCheckpoint_df (known : Bool) (s : State) : (paceCheckpoint known s).df = s.df := rfl
@[simp] theorem paceCheckpoint_t (known : Bool) (s : State) : (paceCheckpoint known s).t = s.t := rfl
@[simp] theorem paceCheckpoint_p (known : Bool) (s : State) : (paceCheckpoint known s).p = s.p := rfl
@[simp] theorem paceCheckpoint_x (known : Bool) (s : State) : (paceCheckpoint known s).x = s.x := rfl
@[simp] theorem paceCheckpoint_ie (known : Bool) (s : State) : (paceCheckpoint known s).ie = s.ie := rfl
@[simp] theorem paceCheckpoint_ef (known : Bool) (s : State) : (paceCheckpoint known s).ef = s.ef := rfl
@[simp] theorem paceCheckpoint_q (known : Bool) (s : State) : (paceCheckpoint known s).q = s.q := rfl
@[simp] theorem paceCheckpoint_cycles (known : Bool) (s : State) : (paceCheckpoint known s).cycles = s.cycles := rfl
@[simp] theorem paceCheckpoint_idle (known : Bool) (s : State) : (paceCheckpoint known s).idle = s.idle := rfl
@[simp] theorem paceCheckpoint_stopReq (known : Bool) (s : State) : (paceCheckpoint known s).stopReq = s.stopReq := rfl
@[simp] theorem paceCheckpoint_running (known : Bool) (s : State) : (paceCheckpoint known s).running = s.running := rfl
@[simp] theorem paceCheckpoint_stepMode (known : Bool) (s : State) : (paceCheckpoint known s).stepMode = s.stepMode := rfl
@[simp] theorem paceCheckpoint_stepRun (known : Bool) (s : State) : (paceCheckpoint known s).stepRun = s.stepRun := rfl
@[simp] theorem paceCheckpoint_cycleCap (known : Bool) (s : State) : (paceCheckpoint known s).cycleCap = s.cycleCap := rfl
@[simp] theorem paceCheckpoint_mem (known : Bool) (s : State) : (paceCheckpoint known s).mem = s.mem := rfl
@[simp] theorem paceCheckpoint_mp (known : Bool) (s : State) : (paceCheckpoint known s).mp = s.mp := rfl
@[simp] theorem paceCheckpoint_inPort (known : Bool) (s : State) : (paceCheckpoint known s).inPort = s.inPort := rfl
@[simp] theorem paceCheckpoint_outPort (known : Bool) (s : State) : (paceCheckpoint known s).outPort = s.outPort := rfl
@[simp] theorem paceCheckpoint_observer (known : Bool) (s : State) : (paceCheckpoint known s).observer = s.observer := rfl
@[simp] theorem paceCheckpoint_events (known : Bool) (s : State) : (paceCheckpoint known s).events = s.events := rfl
@[simp] theorem paceCheckpoint_fault (known : Bool) (s : State) : (paceCheckpoint known s).fault = s.fault := rfl
@[simp] theorem paceCheckpoint_inputs (known : Bool) (s : State) : (paceCheckpoint known s).inputs = s.inputs := rfl

/-! ### afterInstr -/

@[simp] theorem afterInstr_regs (i : Instr) (s : State) : (afterInstr i s).regs = s.regs := by unfold afterInstr; split <;> rfl
@[simp] theorem afterInstr_d (i : Instr) (s : State) : (afterInstr i s).d = s.d := by unfold afterInstr; split <;> rfl
@[simp] theorem afterInstr_df (i : Instr) (s : State) : (afterInstr i s).df = s.df := by unfold afterInstr; split <;> rfl
@[simp] theorem afterInstr_t (i : Instr) (s : State) : (afterInstr i s).t = s.t := by unfold afterInstr; split <;> rfl
@[simp] theorem afterInstr_p (i : Instr) (s : State) : (afterInstr i s).p = s.p := by unfold afterInstr; split <;> rfl
@[simp] theorem afterInstr_x (i : Instr) (s : State) : (afterInstr i s).x = s.x := by unfold afterInstr; split <;> rfl
@[simp] theorem afterInstr_ie (i : Instr) (s : State) : (afterInstr i s).ie = s.ie := by unfold afterInstr; split <;> rfl
@[simp] theorem afterInstr_ef (i : Instr) (s : State) : (afterInstr i s).ef = s.ef := by unfold afterInstr; split <;> rfl
@[simp] theorem afterInstr_q (i : Instr) (s : State) : (afterInstr i s).q = s.q := by unfold afterInstr; split <;> rfl
@[simp] theorem afterInstr_cycles (i : Instr) (s : State) : (afterInstr i s).cycles = s.cycles := by unfold afterInstr; split <;> rfl
@[simp] theorem afterInstr_idle (i : Instr) (s : State) : (afterInstr i s).idle = s.idle := by unfold afterInstr; split <;> rfl
@[simp] theorem afterInstr_stopReq (i : Instr) (s : State) : (afterInstr i s).stopReq = s.stopReq := by unfold afterInstr; split <;> rfl
@[simp] theorem afterInstr_running (i : Instr) (s : State) : (afterInstr i s).running = s.running := by unfold afterInstr; split <;> rfl
@[simp] theorem afterInstr_stepMode (i : Instr) (s : State) : (afterInstr i s).stepMode = s.stepMode := by unfold afterInstr; split <;> rfl
@[simp] theorem afterInstr_stepRun (i : Instr) (s : State) : (afterInstr i s).stepRun = s.stepRun := by unfold afterInstr; split <;> rfl
@[simp] theorem afterInstr_cycleCap (i : Instr) (s : State) : (afterInstr i s).cycleCap = s.cycleCap := by unfold afterInstr; split <;> rfl
@[simp] theorem afterInstr_mem (i : Instr) (s : State) : (afterInstr i s).mem = s.mem := by unfold afterInstr; split <;> rfl
@[simp] theorem afterInstr_mp (i : Instr) (s : State) : (afterInstr i s).mp = s.mp := by unfold afterInstr; split <;> rfl
@[simp] theorem afterInstr_inPort (i : Instr) (s : State) : (afterInstr i s).inPort = s.inPort := by unfold afterInstr; split <;> rfl
@[simp] theorem afterInstr_outPort (i : Instr) (s : State) : (afterInstr i s).outPort = s.outPort := by unfold afterInstr; split <;> rfl
@[simp] theorem afterInstr_observer (i : Instr) (s : State) : (afterInstr i s).observer = s.observer := by unfold afterInstr; split <;> rfl
@[simp] theorem afterInstr_events (i : Instr) (s : State) : (afterInstr i s).events = s.events := by unfold afterInstr; split <;> rfl
@[simp] theorem afterInstr_fault (i : Instr) (s : State) : (afterInstr i s).fault = s.fault := by unfold afterInstr; split <;> rfl
@[simp] theorem afterInstr_clockMs (i : Instr) (s : State) : (afterInstr i s).clockMs = s.clockMs := by unfold afterInstr; split <;> rfl
@[simp] theorem afterInstr_clockReads (i : Instr) (s : State) : (afterInstr i s).clockReads = s.clockReads := by unfold afterInstr; split <;> rfl
@[simp] theorem afterInstr_inputs (i : Instr) (s : State) : (afterInstr i s).inputs = s.inputs := by unfold afterInstr; split <;> rfl

/-! ### enterRun -/

@[simp] theorem enterRun_regs (s : State) : (enterRun s).regs = s.regs := by unfold enterRun paceInit; dsimp only; split <;> rfl
@[simp] theorem enterRun_d (s : State) : (enterRun s).d = s.d := by unfold enterRun paceInit; dsimp only; split <;> rfl
@[simp] theorem enterRun_df (s : State) : (enterRun s).df = s.df := by unfold enterRun paceInit; dsimp only; split <;> rfl
@[simp] theorem enterRun_t (s : State) : (enterRun s).t = s.t := by unfold enterRun paceInit; dsimp only; split <;> rfl
@[simp] theorem enterRun_p (s : State) : (enterRun s).p = s.p := by unfold enterRun paceInit; dsimp only; split <;> rfl
@[simp] theorem enterRun_x (s : State) : (enterRun s).x = s.x := by unfold enterRun paceInit; dsimp only; split <;> rfl
@[simp] theorem enterRun_ie (s : State) : (enterRun s).ie = s.ie := by unfold enterRun paceInit; dsimp only; split <;> rfl
@[simp] theorem enterRun_ef (s : State) : (enterRun s).ef = s.ef := by unfold enterRun paceInit; dsimp only; split <;> rfl
@[simp] theorem enterRun_q (s : State) : (enterRun s).q = s.q := by unfold enterRun paceInit; dsimp only; split <;> rfl
@[simp] theorem enterRun_cycles (s : State) : (enterRun s).cycles = s.cycles := by unfold enterRun paceInit; dsimp only; split <;> rfl
@[simp] theorem enterRun_idle (s : State) : (enterRun s).idle = s.idle := by unfold enterRun paceInit; dsimp only; split <;> rfl
@[simp] theorem enterRun_stopReq (s : State) :
    (enterRun s).stopReq = false := by unfold enterRun paceInit; dsimp only; split <;> rfl
@[simp] theorem enterRun_running (s : State) :
    (enterRun s).running = true := by unfold enterRun paceInit; dsimp only; split <;> rfl
@[simp] theorem enterRun_stepMode (s : State) : (enterRun s).stepMode = s.stepMode := by unfold enterRun paceInit; dsimp only; split <;> rfl
@[simp] theorem enterRun_stepRun (s : State) :
    (enterRun s).stepRun = s.stepMode := by unfold enterRun paceInit; dsimp only; split <;> rfl
@[simp] theorem enterRun_cycleCap (s : State) : (enterRun s).cycleCap = s.cycleCap := by unfold enterRun paceInit; dsimp only; split <;> rfl
@[simp] theorem enterRun_mem (s : State) : (enterRun s).mem = s.mem := by unfold enterRun paceInit; dsimp only; split <;> rfl
@[simp] theorem enterRun_mp (s : State) : (enterRun s).mp = s.mp := by unfold enterRun paceInit; dsimp only; split <;> rfl
@[simp] theorem enterRun_inPort (s : State) : (enterRun s).inPort = s.inPort := by unfold enterRun paceInit; dsimp only; split <;> rfl
@[simp] theorem enterRun_outPort (s : State) : (enterRun s).outPort = s.outPort := by unfold enterRun paceInit; dsimp only; split <;> rfl
@[simp] theorem enterRun_observer (s : State) : (enterRun s).observer = s.observer := by unfold enterRun paceInit; dsimp only; split <;> rfl
@[simp] theorem enterRun_events (s : State) : (enterRun s).events = s.events := by unfold enterRun paceInit; dsimp only; split <;> rfl
@[simp] theorem enterRun_fault (s : State) : (enterRun s).fault = s.fault := by unfold enterRun paceInit; dsimp only; split <;> rfl
@[simp] theorem enterRun_clockMs (s : State) : (enterRun s).clockMs = s.clockMs := by unfold enterRun paceInit; dsimp only; split <;> rfl
@[simp] theorem enterRun_clockReads (s : State) : (enterRun s).clockReads = s.clockReads := by unfold enterRun paceInit; dsimp only; split <;> rfl
@[simp] theorem enterRun_inputs (s : State) : (enterRun s).inputs = s.inputs := by unfold enterRun paceInit; dsimp only; split <;> rfl

/-! ### writeBytes -/

@[simp] theorem writeBytes_regs (s : State) (o : Nat) (bs : List Byte) : (writeBytes s o bs).regs = s.regs := by unfold writeBytes; split <;> rfl
@[simp] theorem writeBytes_d (s : State) (o : Nat) (bs : List Byte) : (writeBytes s o bs).d = s.d := by unfold writeBytes; split <;> rfl
@[simp] theorem writeBytes_df (s : State) (o : Nat) (bs : List Byte) : (writeBytes s o bs).df = s.df := by unfold writeBytes; split <;> rfl
@[simp] theorem writeBytes_t (s : State) (o : Nat) (bs : List Byte) : (writeBytes s o bs).t = s.t := by unfold writeBytes; split <;> rfl
@[simp] theorem writeBytes_p (s : State) (o : Nat) (bs : List Byte) : (writeBytes s o bs).p = s.p := by unfold writeBytes; split <;> rfl
@[simp] theorem writeBytes_x (s : State) (o : Nat) (bs : List Byte) : (writeBytes s o bs).x = s.x := by unfold writeBytes; split <;> rfl
@[simp] theorem writeBytes_ie (s : State) (o : Nat) (bs : List Byte) : (writeBytes s o bs).ie = s.ie := by unfold writeBytes; split <;> rfl
@[simp] theorem writeBytes_ef (s : State) (o : Nat) (bs : List Byte) : (writeBytes s o bs).ef = s.ef := by unfold writeBytes; split <;> rfl
@[simp] theorem writeBytes_q (s : State) (o : Nat) (bs : List Byte) : (writeBytes s o bs).q = s.q := by unfold writeBytes; split <;> rfl
@[simp] theorem writeBytes_cycles (s : State) (o : Nat) (bs : List Byte) : (writeBytes s o bs).cycles = s.cycles := by unfold writeBytes; split <;> rfl
@[simp] theorem writeBytes_idle (s : State) (o : Nat) (bs : List Byte) : (writeBytes s o bs).idle = s.idle := by unfold writeBytes; split <;> rfl
@[simp] theorem writeBytes_stopReq (s : State) (o : Nat) (bs : List Byte) : (writeBytes s o bs).stopReq = s.stopReq := by unfold writeBytes; split <;> rfl
@[simp] theorem writeBytes_running (s : State) (o : Nat) (bs : List Byte) : (writeBytes s o bs).running = s.running := by unfold writeBytes; split <;> rfl
@[simp] theorem writeBytes_stepMode (s : State) (o : Nat) (bs : List Byte) : (writeBytes s o bs).stepMode = s.stepMode := by unfold writeBytes; split <;> rfl
@[simp] theorem writeBytes_stepRun (s : State) (o : Nat) (bs : List Byte) : (writeBytes s o bs).stepRun = s.stepRun := by unfold writeBytes; split <;> rfl
@[simp] theorem writeBytes_cycleCap (s : State) (o : Nat) (bs : List Byte) : (writeBytes s o bs).cycleCap = s.cycleCap := by unfold writeBytes; split <;> rfl
@[simp] theorem writeBytes_mem (s : State) (o : Nat) (bs : List Byte) :
    (writeBytes s o bs).mem = if s.mp then s.mem else Memory.writeAll s.mem o bs := by unfold writeBytes; split <;> rfl
@[simp] theorem writeBytes_mp (s : State) (o : Nat) (bs : List Byte) : (writeBytes s o bs).mp = s.mp := by unfold writeBytes; split <;> rfl
@[simp] theorem writeBytes_inPort (s : State) (o : Nat) (bs : List Byte) : (writeBytes s o bs).inPort = s.inPort := by unfold writeBytes; split <;> rfl
@[simp] theorem writeBytes_outPort (s : State) (o : Nat) (bs : List Byte) : (writeBytes s o bs).outPort = s.outPort := by unfold writeBytes; split <;> rfl
@[simp] theorem writeBytes_observer (s : State) (o : Nat) (bs : List Byte) : (writeBytes s o bs).observer = s.observer := by unfold writeBytes; split <;> rfl
@[simp] theorem writeBytes_events (s : State) (o : Nat) (bs : List Byte) : (writeBytes s o bs).events = s.events := by unfold writeBytes; split <;> rfl
@[simp] theorem writeBytes_pace (s : State) (o : Nat) (bs : List Byte) : (writeBytes s o bs).pace = s.pace := by unfold writeBytes; split <;> rfl
@[simp] theorem writeBytes_fault (s : State) (o : Nat) (bs : List Byte) : (writeBytes s o bs).fault = s.fault := by unfold writeBytes; split <;> rfl
@[simp] theorem writeBytes_clockMs (s : State) (o : Nat) (bs : List Byte) : (writeBytes s o bs).clockMs = s.clockMs := by unfold writeBytes; split <;> rfl
@[simp] theorem writeBytes_clockReads (s : State) (o : Nat) (bs : List Byte) : (writeBytes s o bs).clockReads = s.clockReads := by unfold writeBytes; split <;> rfl
@[simp] theorem writeBytes_inputs (s : State) (o : Nat) (bs : List Byte) : (writeBytes s o bs).inputs = s.inputs := by unfold writeBytes; split <;> rfl

/-! ### installObserver -/

@[simp] theorem installObserver_regs (s : State) (o : Nat) : (installObserver s o).regs = s.regs := rfl
@[simp] theorem installObserver_d (s : State) (o : Nat) : (installObserver s o).d = s.d := rfl
@[simp] theorem installObserver_df (s : State) (o : Nat) : (installObserver s o).df = s.df := rfl
@[simp] theorem installObserver_t (s : State) (o : Nat) : (installObserver s o).t = s.t := rfl
@[simp] theorem installObserver_p (s : State) (o : Nat) : (installObserver s o).p = s.p := rfl
@[simp] theorem installObserver_x (s : State) (o : Nat) : (installObserver s o).x = s.x := rfl
@[simp] theorem installObserver_ie (s : State) (o : Nat) : (installObserver s o).ie = s.ie := rfl
@[simp] theorem installObserver_ef (s : State) (o : Nat) : (installObserver s o).ef = s.ef := rfl
@[simp] theorem installObserver_q (s : State) (o : Nat) : (installObserver s o).q = s.q := rfl
@[simp] theorem installObserver_cycles (s : State) (o : Nat) : (installObserver s o).cycles = s.cycles := rfl
@[simp] theorem installObserver_idle (s : State) (o : Nat) : (installObserver s o).idle = s.idle := rfl
@[simp] theorem installObserver_stopReq (s : State) (o : Nat) : (installObserver s o).stopReq = s.stopReq := rfl
@[simp] theorem installObserver_running (s : State) (o : Nat) : (installObserver s o).running = s.running := rfl
@[simp] theorem installObserver_stepMode (s : State) (o : Nat) : (installObserver s o).stepMode = s.stepMode := rfl
@[simp] theorem installObserver_stepRun (s : State) (o : Nat) : (installObserver s o).stepRun = s.stepRun := rfl
@[simp] theorem installObserver_cycleCap (s : State) (o : Nat) : (installObserver s o).cycleCap = s.cycleCap := rfl
@[simp] theorem installObserver_mem (s : State) (o : Nat) : (installObserver s o).mem = s.mem := rfl
@[simp] theorem installObserver_mp (s : State) (o : Nat) : (installObserver s o).mp = s.mp := rfl
@[simp] theorem installObserver_inPort (s : State) (o : Nat) : (installObserver s o).inPort = s.inPort := rfl
@[simp] theorem installObserver_outPort (s : State) (o : Nat) : (installObserver s o).outPort = s.outPort := rfl
@[simp] theorem installObserver_observer (s : State) (o : Nat) :
    (installObserver s o).observer = some { callbacks := o, since := s.events.length } := rfl
@[simp] theorem installObserver_events (s : State) (o : Nat) : (installObserver s o).events = s.events := rfl
@[simp] theorem installObserver_pace (s : State) (o : Nat) : (installObserver s o).pace = s.pace := rfl
@[simp] theorem installObserver_fault (s : State) (o : Nat) : (installObserver s o).fault = s.fault := rfl
@[simp] theorem installObserver_clockMs (s : State) (o : Nat) : (installObserver s o).clockMs = s.clockMs := rfl
@[simp] theorem installObserver_clockReads (s : State) (o : Nat) : (installObserver s o).clockReads = s.clockReads := rfl
@[simp] theorem installObserver_inputs (s : State) (o : Nat) : (installObserver s o).inputs = s.inputs := rfl

end Sys2Proof.Machine
end

