-- ==== Sys2Proof/Laws/Ops.lean ====
section
/-! SUPPORT. One lemma per shared operation that says everything it does, in terms of the base updates of Laws/State.lean
and of reads; the provers cite these instead of unfolding the operation. -/

namespace Sys2Proof.Machine

/-! ### Registers -/

theorem getReg_congr {s t : State} (h : t.regs = s.regs) (n : Nibble) : getReg t n = getReg s n := by
  simp [getReg, h]

@[simp] theorem getReg_setReg (s : State) (n m : Nibble) (v : Word) :
    getReg (setReg s n v) m = if m = n then v else getReg s m := by
  simp [getReg, Vector.getElem_set, BitVec.toNat_inj, eq_comm]

@[simp] theorem setReg_setReg (s : State) (n : Nibble) (v w : Word) : setReg (setReg s n v) n w = setReg s n w := by
  simp [setReg]

@[simp] theorem setReg_getReg (s : State) (n : Nibble) : setReg s n (getReg s n) = s := by
  simp [setReg, getReg]

@[simp] theorem setPc_eq (s : State) (v : Word) : setPc s v = setReg s s.p v := rfl

@[simp] theorem advancePc_eq (s : State) (k : Word) : advancePc s k = setReg s s.p (getReg s s.p + k) := rfl

@[simp] theorem pc_eq (s : State) : pc s = getReg s s.p := rfl

@[simp] theorem dataPtr_eq (s : State) : dataPtr s = getReg s s.x := rfl

@[simp] theorem stepUp_eq (s : State) (n : Nibble) : stepUp s n = setReg s n (getReg s n + 1) := rfl

@[simp] theorem stepDown_eq (s : State) (n : Nibble) : stepDown s n = setReg s n (getReg s n - 1) := rfl

@[simp] theorem consumeOperand_eq (s : State) : consumeOperand s = setReg s s.p (getReg s s.p + 1) := rfl

/-! ### Reads of registers through updates that touch no register -/

@[simp] theorem getReg_setD (s : State) (v : Byte) (n : Nibble) : getReg (setD s v) n = getReg s n :=
  getReg_congr (by simp) n

@[simp] theorem getReg_setDandDF (s : State) (r : Byte × Bool) (n : Nibble) : getReg (setDandDF s r) n = getReg s n :=
  getReg_congr (by simp) n

@[simp] theorem getReg_writeByte (s : State) (a : Word) (v : Byte) (n : Nibble) :
    getReg (writeByte s a v) n = getReg s n :=
  getReg_congr (by simp) n

@[simp] theorem getReg_outPortWrite (s : State) (i : Fin 7) (v : Byte) (n : Nibble) :
    getReg (outPortWrite s i v) n = getReg s n :=
  getReg_congr (by simp) n

@[simp] theorem getReg_qWrite (s : State) (b : Bool) (n : Nibble) : getReg (qWrite s b) n = getReg s n :=
  getReg_congr (by simp) n

@[simp] theorem getReg_complete (i : Instr) (s : State) (n : Nibble) : getReg (complete i s) n = getReg s n :=
  getReg_congr (by simp) n

@[simp] theorem getReg_takeDecodeFault (op : Byte) (s : State) (n : Nibble) :
    getReg (takeDecodeFault op s) n = getReg s n :=
  getReg_congr (by simp) n

/-! ### Memory -/

/-- A store as one record update. -/
theorem writeByte_eq (s : State) (a : Word) (v : Byte) :
    writeByte s a v = { s with mem := if s.mp then s.mem else Memory.write s.mem a.toNat v } := by
  unfold writeByte
  split <;> rfl

theorem readByte_congr {s t : State} (h : t.mem = s.mem) (a : Word) : readByte t a = readByte s a := by
  simp [readByte, h]

/-- A byte read after a store: the stored byte at the address, unless the write-protect latch dropped it; every other
byte as before. -/
@[simp] theorem readByte_writeByte (s : State) (a b : Word) (v : Byte) :
    readByte (writeByte s a v) b = if b = a ∧ s.mp = false then v else readByte s b := by
  unfold writeByte
  cases hmp : s.mp
  · simp [readByte, Memory.read_write, BitVec.toNat_inj]
  · simp

@[simp] theorem readByte_setReg (s : State) (n : Nibble) (v a : Word) : readByte (setReg s n v) a = readByte s a :=
  readByte_congr (by simp) a

@[simp] theorem readByte_setD (s : State) (v : Byte) (a : Word) : readByte (setD s v) a = readByte s a :=
  readByte_congr (by simp) a

@[simp] theorem readByte_setDandDF (s : State) (r : Byte × Bool) (a : Word) :
    readByte (setDandDF s r) a = readByte s a :=
  readByte_congr (by simp) a

@[simp] theorem readByte_outPortWrite (s : State) (i : Fin 7) (v : Byte) (a : Word) :
    readByte (outPortWrite s i v) a = readByte s a :=
  readByte_congr (by simp) a

@[simp] theorem readByte_qWrite (s : State) (b : Bool) (a : Word) : readByte (qWrite s b) a = readByte s a :=
  readByte_congr (by simp) a

@[simp] theorem readByte_complete (i : Instr) (s : State) (a : Word) : readByte (complete i s) a = readByte s a :=
  readByte_congr (by simp) a

/-- The host's bulk write seen through one read (R43). -/
theorem readByte_writeBytes (s : State) (o : Nat) (bs : List Byte) (a : Word) :
    readByte (writeBytes s o bs) a =
      if s.mp = false ∧ o ≤ a.toNat ∧ a.toNat < o + bs.length then bs.getD (a.toNat - o) 0 else readByte s a := by
  unfold writeBytes
  cases hmp : s.mp
  · simp [readByte, Memory.read_writeAll, word_lt_memSize]
  · simp

theorem wf_writeByte {s : State} (h : s.mem.wf = true) (a : Word) (v : Byte) : (writeByte s a v).mem.wf = true := by
  rw [writeByte_mem]
  split
  · exact h
  · exact Memory.wf_write h (word_lt_memSize a) v

theorem wf_writeBytes {s : State} (h : s.mem.wf = true) (o : Nat) (bs : List Byte) :
    (writeBytes s o bs).mem.wf = true := by
  rw [writeBytes_mem]
  split
  · exact h
  · exact Memory.wf_writeAll h o bs

/-! ### The adder and the shifts as arithmetic -/

theorem add8_fst_toNat (a b : Byte) (c : Bool) :
    (add8 a b c).1.toNat = (a.toNat + b.toNat + c.toNat) % 256 := by
  simp [add8]

theorem add8_snd (a b : Byte) (c : Bool) : (add8 a b c).2 = decide (255 < a.toNat + b.toNat + c.toNat) := rfl

theorem shiftRight_fst_toNat (a : Byte) (b : Bool) : (shiftRight a b).1.toNat = b.toNat * 128 + a.toNat / 2 := by
  revert a b; decide

theorem shiftRight_snd (a : Byte) (b : Bool) : (shiftRight a b).2 = decide (a.toNat % 2 = 1) := by
  revert a b; decide

theorem shiftLeft_fst_toNat (a : Byte) (b : Bool) : (shiftLeft a b).1.toNat = (2 * a.toNat + b.toNat) % 256 := by
  revert a b; decide

theorem shiftLeft_snd (a : Byte) (b : Bool) : (shiftLeft a b).2 = decide (128 ≤ a.toNat) := by
  revert a b; decide

/-! ### Control transfer, selectors, ports -/

/-- A short branch writes `R[P]` and nothing else. -/
theorem shortBranch_eq (taken : Bool) (b : Byte) (s : State) :
    shortBranch taken b s =
      setReg s s.p (if taken then joinBytes (hiByte (getReg s s.p)) b else getReg s s.p + 1) := by
  cases taken <;> rfl

/-- A long branch writes `R[P]` and nothing else. -/
theorem longBranch_eq (taken : Bool) (target : Word) (s : State) :
    longBranch taken target s = setReg s s.p (if taken then target else getReg s s.p + 2) := by
  cases taken <;> rfl

/-- A long skip writes `R[P]` and nothing else. -/
theorem longSkip_eq (taken : Bool) (s : State) :
    longSkip taken s = setReg s s.p (if taken then getReg s s.p + 2 else getReg s s.p) := by
  cases taken
  · exact (setReg_getReg s s.p).symm
  · rfl

theorem loadSelectors_eq (ie : Bool) (s : State) :
    loadSelectors ie s =
      { setReg s s.x (getReg s s.x + 1) with
        x := hiNibble (readByte s (getReg s s.x)), p := loNibble (readByte s (getReg s s.x)), ie := ie } := rfl

theorem sendToPort_eq (i : Fin 7) (s : State) :
    sendToPort i s = setReg (outPortWrite s i (readByte s (getReg s s.x))) s.x (getReg s s.x + 1) := by
  simp [sendToPort, memOperand]

theorem readFromPort_eq (i : Fin 7) (s : State) :
    readFromPort i s = setD (writeByte s (getReg s s.x) s.inPort[i]) s.inPort[i] := rfl

theorem savePair_eq (s : State) :
    savePair s =
      { setReg (writeByte s (getReg s 2) (joinNibbles s.x s.p)) 2 (getReg s 2 - 1) with
        t := joinNibbles s.x s.p, x := s.p } := by
  simp only [savePair, writeByte_eq]
  rfl

theorem loadAdvance_eq (s : State) (n : Nibble) :
    loadAdvance s n = setReg (setD s (readByte s (getReg s n))) n (getReg s n + 1) := by
  simp [loadAdvance]

/-! ### The output side as record updates -/

theorem outPortWrite_eq (s : State) (i : Fin 7) (v : Byte) :
    outPortWrite s i v =
      { s with
        outPort := s.outPort.set i v
        events := if s.outPort[i] = v then s.events else s.events ++ [.portChanged i v] } := by
  unfold outPortWrite
  split
  · next h => subst h; simp
  · rfl

theorem qWrite_eq (s : State) (b : Bool) :
    qWrite s b = { s with q := b, events := if s.q = b then s.events else s.events ++ [.qChanged b] } := by
  unfold qWrite
  split
  · next h => subst h; rfl
  · rfl

/-! ### Reset and the observer -/

/-- `reset()` writes seven things and no other (70_reset_and_hazards.md R260, R261). -/
theorem resetCpu_eq (s : State) :
    resetCpu s =
      { s with
        regs := s.regs.set 0 0, ie := true, x := 0, p := 0, cycles := 0, idle := false, q := false
        events := if s.q = false then s.events else s.events ++ [.qChanged false] } := by
  rw [resetCpu, qWrite_eq]
  rfl

/-- The state right after reset is the reset of the zero `INIT`, with the host about to call run(). -/
theorem reset_eq : State.reset = { resetCpu (State.construct Init.zero) with inputs := [[.run]] } := by decide

end Sys2Proof.Machine
end

