-- ==== Sys2Proof/Laws/PerInstr.lean ====
section
/-! SUPPORT. Statements made for every instruction, one lemma per constructor. -/

namespace Sys2Proof.Laws

/-- The encoding has as many bytes as the opcode byte says (30_encoding.md R62). -/
def EncodeLength.Statement (i : Instr) : Prop := (encode i).length = opLength (opcodeOf i)

/-- A REG form has one byte whatever its register number. -/
theorem opLength_reg (h : Nibble) (hh : h ∉ [(3 : Nibble), 7, 12, 15]) (n : Nibble) :
    opLength (joinNibbles h n) = 1 := by
  revert h n; decide

theorem EncodeLength.idl : EncodeLength.Statement .idl := (by decide : 1 = opLength 0x00)
theorem EncodeLength.ldn (n : Nibble) : EncodeLength.Statement (.ldn n) := (opLength_reg 0x0 (by decide) n).symm
theorem EncodeLength.inc (n : Nibble) : EncodeLength.Statement (.inc n) := (opLength_reg 0x1 (by decide) n).symm
theorem EncodeLength.dec (n : Nibble) : EncodeLength.Statement (.dec n) := (opLength_reg 0x2 (by decide) n).symm
theorem EncodeLength.br (addr : Byte) : EncodeLength.Statement (.br addr) := (by decide : 2 = opLength 0x30)
theorem EncodeLength.bq (addr : Byte) : EncodeLength.Statement (.bq addr) := (by decide : 2 = opLength 0x31)
theorem EncodeLength.bz (addr : Byte) : EncodeLength.Statement (.bz addr) := (by decide : 2 = opLength 0x32)
theorem EncodeLength.bdf (addr : Byte) : EncodeLength.Statement (.bdf addr) := (by decide : 2 = opLength 0x33)
theorem EncodeLength.b1 (addr : Byte) : EncodeLength.Statement (.b1 addr) := (by decide : 2 = opLength 0x34)
theorem EncodeLength.b2 (addr : Byte) : EncodeLength.Statement (.b2 addr) := (by decide : 2 = opLength 0x35)
theorem EncodeLength.b3 (addr : Byte) : EncodeLength.Statement (.b3 addr) := (by decide : 2 = opLength 0x36)
theorem EncodeLength.b4 (addr : Byte) : EncodeLength.Statement (.b4 addr) := (by decide : 2 = opLength 0x37)
theorem EncodeLength.skp : EncodeLength.Statement .skp := (by decide : 1 = opLength 0x38)
theorem EncodeLength.bnq (addr : Byte) : EncodeLength.Statement (.bnq addr) := (by decide : 2 = opLength 0x39)
theorem EncodeLength.bnz (addr : Byte) : EncodeLength.Statement (.bnz addr) := (by decide : 2 = opLength 0x3A)
theorem EncodeLength.bnf (addr : Byte) : EncodeLength.Statement (.bnf addr) := (by decide : 2 = opLength 0x3B)
theorem EncodeLength.bn1 (addr : Byte) : EncodeLength.Statement (.bn1 addr) := (by decide : 2 = opLength 0x3C)
theorem EncodeLength.bn2 (addr : Byte) : EncodeLength.Statement (.bn2 addr) := (by decide : 2 = opLength 0x3D)
theorem EncodeLength.bn3 (addr : Byte) : EncodeLength.Statement (.bn3 addr) := (by decide : 2 = opLength 0x3E)
theorem EncodeLength.bn4 (addr : Byte) : EncodeLength.Statement (.bn4 addr) := (by decide : 2 = opLength 0x3F)
theorem EncodeLength.lda (n : Nibble) : EncodeLength.Statement (.lda n) := (opLength_reg 0x4 (by decide) n).symm
theorem EncodeLength.str (n : Nibble) : EncodeLength.Statement (.str n) := (opLength_reg 0x5 (by decide) n).symm
theorem EncodeLength.irx : EncodeLength.Statement .irx := (by decide : 1 = opLength 0x60)
theorem EncodeLength.out1 : EncodeLength.Statement .out1 := (by decide : 1 = opLength 0x61)
theorem EncodeLength.out2 : EncodeLength.Statement .out2 := (by decide : 1 = opLength 0x62)
theorem EncodeLength.out3 : EncodeLength.Statement .out3 := (by decide : 1 = opLength 0x63)
theorem EncodeLength.out4 : EncodeLength.Statement .out4 := (by decide : 1 = opLength 0x64)
theorem EncodeLength.out5 : EncodeLength.Statement .out5 := (by decide : 1 = opLength 0x65)
theorem EncodeLength.out6 : EncodeLength.Statement .out6 := (by decide : 1 = opLength 0x66)
theorem EncodeLength.out7 : EncodeLength.Statement .out7 := (by decide : 1 = opLength 0x67)
theorem EncodeLength.inp1 : EncodeLength.Statement .inp1 := (by decide : 1 = opLength 0x69)
theorem EncodeLength.inp2 : EncodeLength.Statement .inp2 := (by decide : 1 = opLength 0x6A)
theorem EncodeLength.inp3 : EncodeLength.Statement .inp3 := (by decide : 1 = opLength 0x6B)
theorem EncodeLength.inp4 : EncodeLength.Statement .inp4 := (by decide : 1 = opLength 0x6C)
theorem EncodeLength.inp5 : EncodeLength.Statement .inp5 := (by decide : 1 = opLength 0x6D)
theorem EncodeLength.inp6 : EncodeLength.Statement .inp6 := (by decide : 1 = opLength 0x6E)
theorem EncodeLength.inp7 : EncodeLength.Statement .inp7 := (by decide : 1 = opLength 0x6F)
theorem EncodeLength.ret : EncodeLength.Statement .ret := (by decide : 1 = opLength 0x70)
theorem EncodeLength.dis : EncodeLength.Statement .dis := (by decide : 1 = opLength 0x71)
theorem EncodeLength.ldxa : EncodeLength.Statement .ldxa := (by decide : 1 = opLength 0x72)
theorem EncodeLength.stxd : EncodeLength.Statement .stxd := (by decide : 1 = opLength 0x73)
theorem EncodeLength.adc : EncodeLength.Statement .adc := (by decide : 1 = opLength 0x74)
theorem EncodeLength.sdb : EncodeLength.Statement .sdb := (by decide : 1 = opLength 0x75)
theorem EncodeLength.shrc : EncodeLength.Statement .shrc := (by decide : 1 = opLength 0x76)
theorem EncodeLength.smb : EncodeLength.Statement .smb := (by decide : 1 = opLength 0x77)
theorem EncodeLength.sav : EncodeLength.Statement .sav := (by decide : 1 = opLength 0x78)
theorem EncodeLength.mark : EncodeLength.Statement .mark := (by decide : 1 = opLength 0x79)
theorem EncodeLength.req : EncodeLength.Statement .req := (by decide : 1 = opLength 0x7A)
theorem EncodeLength.seq : EncodeLength.Statement .seq := (by decide : 1 = opLength 0x7B)
theorem EncodeLength.adci (imm : Byte) : EncodeLength.Statement (.adci imm) := (by decide : 2 = opLength 0x7C)
theorem EncodeLength.sdbi (imm : Byte) : EncodeLength.Statement (.sdbi imm) := (by decide : 2 = opLength 0x7D)
theorem EncodeLength.shlc : EncodeLength.Statement .shlc := (by decide : 1 = opLength 0x7E)
theorem EncodeLength.smbi (imm : Byte) : EncodeLength.Statement (.smbi imm) := (by decide : 2 = opLength 0x7F)
theorem EncodeLength.glo (n : Nibble) : EncodeLength.Statement (.glo n) := (opLength_reg 0x8 (by decide) n).symm
theorem EncodeLength.ghi (n : Nibble) : EncodeLength.Statement (.ghi n) := (opLength_reg 0x9 (by decide) n).symm
theorem EncodeLength.plo (n : Nibble) : EncodeLength.Statement (.plo n) := (opLength_reg 0xA (by decide) n).symm
theorem EncodeLength.phi (n : Nibble) : EncodeLength.Statement (.phi n) := (opLength_reg 0xB (by decide) n).symm
theorem EncodeLength.lbr (target : Word) : EncodeLength.Statement (.lbr target) := (by decide : 3 = opLength 0xC0)
theorem EncodeLength.lbq (target : Word) : EncodeLength.Statement (.lbq target) := (by decide : 3 = opLength 0xC1)
theorem EncodeLength.lbz (target : Word) : EncodeLength.Statement (.lbz target) := (by decide : 3 = opLength 0xC2)
theorem EncodeLength.lbdf (target : Word) : EncodeLength.Statement (.lbdf target) := (by decide : 3 = opLength 0xC3)
theorem EncodeLength.nop : EncodeLength.Statement .nop := (by decide : 1 = opLength 0xC4)
theorem EncodeLength.lsnq : EncodeLength.Statement .lsnq := (by decide : 1 = opLength 0xC5)
theorem EncodeLength.lsnz : EncodeLength.Statement .lsnz := (by decide : 1 = opLength 0xC6)
theorem EncodeLength.lsnf : EncodeLength.Statement .lsnf := (by decide : 1 = opLength 0xC7)
theorem EncodeLength.lskp : EncodeLength.Statement .lskp := (by decide : 1 = opLength 0xC8)
theorem EncodeLength.lbnq (target : Word) : EncodeLength.Statement (.lbnq target) := (by decide : 3 = opLength 0xC9)
theorem EncodeLength.lbnz (target : Word) : EncodeLength.Statement (.lbnz target) := (by decide : 3 = opLength 0xCA)
theorem EncodeLength.lbnf (target : Word) : EncodeLength.Statement (.lbnf target) := (by decide : 3 = opLength 0xCB)
theorem EncodeLength.lsie : EncodeLength.Statement .lsie := (by decide : 1 = opLength 0xCC)
theorem EncodeLength.lsq : EncodeLength.Statement .lsq := (by decide : 1 = opLength 0xCD)
theorem EncodeLength.lsz : EncodeLength.Statement .lsz := (by decide : 1 = opLength 0xCE)
theorem EncodeLength.lsdf : EncodeLength.Statement .lsdf := (by decide : 1 = opLength 0xCF)
theorem EncodeLength.sep (n : Nibble) : EncodeLength.Statement (.sep n) := (opLength_reg 0xD (by decide) n).symm
theorem EncodeLength.sex (n : Nibble) : EncodeLength.Statement (.sex n) := (opLength_reg 0xE (by decide) n).symm
theorem EncodeLength.ldx : EncodeLength.Statement .ldx := (by decide : 1 = opLength 0xF0)
theorem EncodeLength.or : EncodeLength.Statement .or := (by decide : 1 = opLength 0xF1)
theorem EncodeLength.and : EncodeLength.Statement .and := (by decide : 1 = opLength 0xF2)
theorem EncodeLength.xor : EncodeLength.Statement .xor := (by decide : 1 = opLength 0xF3)
theorem EncodeLength.add : EncodeLength.Statement .add := (by decide : 1 = opLength 0xF4)
theorem EncodeLength.sd : EncodeLength.Statement .sd := (by decide : 1 = opLength 0xF5)
theorem EncodeLength.shr : EncodeLength.Statement .shr := (by decide : 1 = opLength 0xF6)
theorem EncodeLength.sm : EncodeLength.Statement .sm := (by decide : 1 = opLength 0xF7)
theorem EncodeLength.ldi (imm : Byte) : EncodeLength.Statement (.ldi imm) := (by decide : 2 = opLength 0xF8)
theorem EncodeLength.ori (imm : Byte) : EncodeLength.Statement (.ori imm) := (by decide : 2 = opLength 0xF9)
theorem EncodeLength.ani (imm : Byte) : EncodeLength.Statement (.ani imm) := (by decide : 2 = opLength 0xFA)
theorem EncodeLength.xri (imm : Byte) : EncodeLength.Statement (.xri imm) := (by decide : 2 = opLength 0xFB)
theorem EncodeLength.adi (imm : Byte) : EncodeLength.Statement (.adi imm) := (by decide : 2 = opLength 0xFC)
theorem EncodeLength.sdi (imm : Byte) : EncodeLength.Statement (.sdi imm) := (by decide : 2 = opLength 0xFD)
theorem EncodeLength.shl : EncodeLength.Statement .shl := (by decide : 1 = opLength 0xFE)
theorem EncodeLength.smi (imm : Byte) : EncodeLength.Statement (.smi imm) := (by decide : 2 = opLength 0xFF)
theorem EncodeLength.undefined : EncodeLength.Statement .undefined := (by decide : 1 = opLength 0x68)

end Sys2Proof.Laws
end

