-- ==== Sys2Proof/Laws/Step.lean ====
section
/-! SUPPORT. What a host call, a turn of the CPU and a step can do, said once; and the packaged induction: what the host
calls, the scheduler and the handlers keep, every step keeps. -/

namespace Sys2Proof.Machine

open Host (Outcome)

/-- A host call that is answered is one the contract allows, and has its effect. -/
theorem hostCall_ok {c : HostCall} {s s' : State} (h : hostCall c s = .ok s') :
    (s.running = true → allowedDuringRun c = true) ∧ hostEffect c s = some s' := by
  unfold hostCall at h
  split at h
  · cases h
  · next hc =>
    refine ⟨fun hr => ?_, ?_⟩
    · simpa [hr] using hc
    · split at h
      · next he => rw [he]; exact congrArg some (by injection h)
      · cases h

/-- The inversion of a host call that is allowed while a run is in progress: it is one of five. -/
theorem hostCall_ok_running {c : HostCall} {s s' : State} (h : hostCall c s = .ok s') (hr : s.running = true) :
    (c = .stop ∧ s' = { s with stopReq := true }) ∨
    (∃ on, c = .setSingleStep on ∧ s' = { s with stepMode := on }) ∨
    (∃ i b, ∃ k : Fin 4, c = .setExternalFlag i b ∧ asIndex 4 i = some k ∧ s' = { s with ef := s.ef.set k b }) ∨
    (∃ i v, ∃ k : Fin 7, c = .setInPort i v ∧ asIndex 7 i = some k ∧ s' = { s with inPort := s.inPort.set k v }) ∨
    (∃ ms, c = .tick ms ∧ s' = { s with clockMs := s.clockMs + ms }) := by
  obtain ⟨ha, he⟩ := hostCall_ok h
  have ha := ha hr
  cases c <;> simp only [allowedDuringRun, Bool.false_eq_true] at ha <;> simp only [hostEffect, Option.some.injEq,
    Option.map_eq_some_iff] at he
  · exact .inl ⟨rfl, he.symm⟩
  · exact .inr (.inl ⟨_, rfl, he.symm⟩)
  · obtain ⟨k, hk, rfl⟩ := he
    exact .inr (.inr (.inl ⟨_, _, k, rfl, hk, rfl⟩))
  · obtain ⟨k, hk, rfl⟩ := he
    exact .inr (.inr (.inr (.inl ⟨_, _, k, rfl, hk, rfl⟩)))
  · exact .inr (.inr (.inr (.inr ⟨_, rfl, he.symm⟩)))

/-- What the calls at one boundary keep, if each call keeps it. -/
theorem hostCalls_induction {I : State → Prop} (hI : ∀ c s s', hostCall c s = .ok s' → I s → I s') {cs : List HostCall}
    {s s' : State} (h : hostCalls cs s = .ok s') (hs : I s) : I s' := by
  induction cs generalizing s with
  | nil =>
    simp only [hostCalls, Except.ok.injEq] at h
    exact h ▸ hs
  | cons c cs ih =>
    unfold hostCalls at h
    split at h
    · next hc => exact ih h (hI _ _ _ hc hs)
    · cases h

/-- Everything a turn of the CPU can do. -/
theorem cpuTurn_cases {known : Bool} {s t : State} (h : cpuTurn known s = .next t) :
    (s.running = false ∧ t = s) ∨
    (s.running = true ∧ s.stepRun = true ∧ s.idle = true ∧ t = endRun s) ∨
    (s.running = true ∧ s.stepRun = true ∧ s.idle = false ∧ ∃ u, runInstr s = .next u ∧ t = endRun u) ∨
    (s.running = true ∧ s.stepRun = false ∧ paceWaits known s = true ∧ t = s) ∨
    (s.running = true ∧ s.stepRun = false ∧ paceWaits known s = false ∧
      loopEnds (paceCheckpoint known s) = true ∧ t = endRun (paceCheckpoint known s)) ∨
    (s.running = true ∧ s.stepRun = false ∧ paceWaits known s = false ∧
      loopEnds (paceCheckpoint known s) = false ∧
      ∃ u, runInstr (paceCheckpoint known s) = .next u ∧ t = afterInstr (fetchInstr (paceCheckpoint known s)) u) := by
  unfold cpuTurn at h
  cases hr : s.running
  · simp only [hr, Bool.not_false, if_true, Outcome.next.injEq] at h
    exact .inl ⟨rfl, h.symm⟩
  · simp only [hr, Bool.not_true, Bool.false_eq_true, if_false] at h
    refine .inr ?_
    cases hs : s.stepRun
    · simp only [hs, Bool.false_eq_true, if_false] at h
      refine .inr (.inr ?_)
      cases hw : paceWaits known s
      · simp only [hw, Bool.false_eq_true, if_false] at h
        refine .inr ?_
        unfold loopTurn at h
        cases hl : loopEnds (paceCheckpoint known s)
        · simp only [hl, Bool.false_eq_true, if_false] at h
          refine .inr ⟨rfl, rfl, rfl, rfl, ?_⟩
          split at h
          · next u hu => exact ⟨u, hu, (Outcome.next.inj h).symm⟩
          · cases h
          · cases h
        · simp only [hl, if_true, Outcome.next.injEq] at h
          exact .inl ⟨rfl, rfl, rfl, rfl, h.symm⟩
      · simp only [hw, if_true, Outcome.next.injEq] at h
        exact .inl ⟨rfl, rfl, rfl, h.symm⟩
    · simp only [hs, if_true] at h
      unfold singleStep at h
      cases hi : s.idle
      · simp only [hi, Bool.false_eq_true, if_false] at h
        refine .inr (.inl ⟨rfl, rfl, rfl, ?_⟩)
        split at h
        · next u hu => exact ⟨u, hu, (Outcome.next.inj h).symm⟩
        · cases h
        · cases h
      · simp only [hi, if_true, Outcome.next.injEq] at h
        exact .inl ⟨rfl, rfl, rfl, h.symm⟩

/-- Everything a step can do: a turn of the CPU, after the calls of one boundary if any are written down. -/
theorem step_cases {s t : State} (h : step s = .next t) :
    (s.inputs = [] ∧ cpuTurn false s = .next t) ∨
    (∃ calls rest u, s.inputs = calls :: rest ∧ hostCalls calls { s with inputs := rest } = .ok u ∧
      cpuTurn true u = .next t) := by
  unfold step at h
  split at h
  · next hi => exact .inl ⟨hi, h⟩
  · next calls rest hi =>
    split at h
    · next u hu => exact .inr ⟨calls, rest, u, hi, hu, h⟩
    · cases h

/-- The induction of a step, packaged: what taking an input off the list, the host's calls, the scheduler, the end of a
run and every handler keep, every step keeps. -/
theorem step_keeps {I : State → Prop}
    (hinputs : ∀ s rest, I s → I { s with inputs := rest })
    (hcall : ∀ c s s', hostCall c s = .ok s' → I s → I s')
    (hpace : ∀ known s, I s → I (paceCheckpoint known s))
    (hcharge : ∀ c s, I s → I (paceCharge c s))
    (hend : ∀ s, I s → I (endRun s))
    (hfetch : ∀ s, I s → I (advancePc s 1))
    (hexec : ∀ i s t, exec i s = .next t → I s → I t)
    {s t : State} (h : step s = .next t) (hs : I s) : I t := by
  have turn : ∀ known u, cpuTurn known u = .next t → I u → I t := by
    intro known u hu hI
    rcases cpuTurn_cases hu with ⟨-, rfl⟩ | ⟨-, -, -, rfl⟩ | ⟨-, -, -, v, hv, rfl⟩ | ⟨-, -, -, rfl⟩ |
      ⟨-, -, -, -, rfl⟩ | ⟨-, -, -, -, v, hv, rfl⟩
    · exact hI
    · exact hend _ hI
    · exact hend _ (hexec _ _ _ hv (hfetch _ hI))
    · exact hI
    · exact hend _ (hpace _ _ hI)
    · have := hexec _ _ _ hv (hfetch _ (hpace known _ hI))
      unfold afterInstr
      split
      · exact hcharge _ _ this
      · exact this
  rcases step_cases h with ⟨-, ht⟩ | ⟨calls, rest, u, -, hu, ht⟩
  · exact turn _ _ ht hs
  · exact turn _ _ ht (hostCalls_induction hcall hu (hinputs _ _ hs))

/-! ### The run loop's tests see only the fields they name -/

@[simp] theorem loopEnds_paceCheckpoint (known : Bool) (s : State) :
    loopEnds (paceCheckpoint known s) = loopEnds s := rfl

@[simp] theorem capReached_paceCheckpoint (known : Bool) (s : State) :
    capReached (paceCheckpoint known s) = capReached s := rfl

@[simp] theorem fetchInstr_paceCheckpoint (known : Bool) (s : State) :
    fetchInstr (paceCheckpoint known s) = fetchInstr s := rfl

@[simp] theorem paceWaits_free (s : State) : paceWaits false s = false := rfl

theorem fetchInstr_congr {s t : State} (hr : t.regs = s.regs) (hp : t.p = s.p) (hm : t.mem = s.mem) :
    fetchInstr t = fetchInstr s := by
  simp [fetchInstr, getReg_congr hr, readByte_congr hm, hp]

/-! ### A step and a turn, forwards -/

theorem step_no_inputs {s : State} (h : s.inputs = []) : step s = cpuTurn false s := by
  unfold step
  rw [h]

theorem step_inputs {s u : State} {calls : List HostCall} {rest : List (List HostCall)} (h : s.inputs = calls :: rest)
    (hu : hostCalls calls { s with inputs := rest } = .ok u) : step s = cpuTurn true u := by
  unfold step
  rw [h]
  simp only [hu]

/-- A turn of the loop that neither waits nor ends the run executes the fetched instruction. -/
theorem cpuTurn_runs {known : Bool} {s t : State} (hr : s.running = true) (hs : s.stepRun = false)
    (hw : paceWaits known s = false) (hl : loopEnds s = false)
    (ht : exec (fetchInstr s) (advancePc (paceCheckpoint known s) 1) = .next t) :
    cpuTurn known s = .next (afterInstr (fetchInstr s) t) := by
  have hi : runInstr (paceCheckpoint known s) = .next t := ht
  simp [cpuTurn, hr, hs, hw, loopTurn, hl, hi]

/-! ### Several steps -/

theorem run_next {s s' : State} (h : step s = .next s') (n : Nat) :
    Sys2Proof.core.run (n + 1) s = Sys2Proof.core.run n s' := by
  have h' : Sys2Proof.core.step s = .next s' := h
  simp only [Host.Core.run, h']

/-- What every step keeps, every number of steps keeps. -/
theorem run_induction {I : State → Prop} (hI : ∀ s s', step s = .next s' → I s → I s') {n : Nat} {s t : State}
    (h : Sys2Proof.core.run n s = .next t) (hs : I s) : I t := by
  induction n generalizing s with
  | zero =>
    cases h
    exact hs
  | succ n ih =>
    cases hst : step s with
    | next s' =>
      rw [run_next hst] at h
      exact ih h (hI s s' hst hs)
    | fault r => cases r
    | refused r =>
      have h' : Sys2Proof.core.step s = .refused r := hst
      simp only [Host.Core.run, h'] at h
      cases h

/-- The decoder agrees with the fetch: the three bytes at `R[P]` hold the fetched instruction. -/
theorem decode_fetched (s : State) :
    ∃ rest, decode [readByte s (pc s), readByte s (pc s + 1), readByte s (pc s + 2)] = .ok (fetchInstr s, rest) := by
  have h : ¬(3 < opLength (readByte s (pc s))) := by
    unfold opLength
    repeat' split
    all_goals omega
  unfold decode fetchInstr
  exact ⟨_, if_neg h⟩

end Sys2Proof.Machine
end

