-- ==== Sys2Proof/Tests/Slice0.lean ====
section
/-! SUPPORT. Tests of one step each, their expected results from spec/95_test_vectors.md (the id of its row is in the
test's name) or from the opcode map of 30_encoding.md R65, and the witnesses that the hypotheses of every statement can be
met. -/

namespace Sys2Proof.Tests

open Sys2Proof.Machine

/-! ### Helpers -/

/-- The outcome is a next state with the property `p`. -/
def gives (o : Host.Outcome State Fault Refusal) (p : State → Bool) : Bool :=
  match o with
  | .next t => p t
  | .fault _ => false
  | .refused _ => false

theorem next_of_gives {o : Host.Outcome State Fault Refusal} {p : State → Bool} (h : gives o p = true) :
    ∃ t, o = .next t ∧ p t = true := by
  cases o with
  | next t => exact ⟨t, rfl, h⟩
  | fault r => cases r
  | refused r => cases h

/-- Sixteen registers, zero but for those listed. -/
def regsOf (rs : List (Nat × Word)) : Vector Word 16 :=
  Vector.ofFn fun (i : Fin 16) => ((rs.find? fun r => r.1 == i.val).map (·.2)).getD 0

/-- The start state of the vectors of 95_test_vectors.md, in a run. -/
def base : State :=
  { State.reset with regs := regsOf [(0, 0x10), (2, 0x100)], x := 2, running := true, inputs := [] }

/-- `s` with bytes placed at its program counter. -/
def code (bytes : List Byte) (s : State) : State := { s with mem := placeBytes s.mem (pc s) bytes }

/-- One instruction run from `s` with its bytes placed: `p` relates the state before and the state after. -/
def after (bytes : List Byte) (s : State) (p : State → State → Bool) : Bool :=
  gives (runInstr (code bytes s)) (p (code bytes s))

/-! ### Well-formed terms -/

theorem test_wf_ldn_zero_refused : (Instr.ldn 0).wellFormed = false := by decide
theorem test_wf_ldn_accepted : (Instr.ldn 1).wellFormed = true ∧ (Instr.ldn 15).wellFormed = true := by decide
theorem test_wf_others_accepted : (Instr.lda 0).wellFormed = true ∧ Instr.undefined.wellFormed = true := by decide

/-! ### Decoding: a word for every constructor, written from the opcode map (30_encoding.md R65) -/

/-- Row 0 and the REG rows: opcode 00 is IDL, the register number is the low nibble. -/
theorem test_decode_register_rows :
    decodeTableWord 8 0x0 = some .idl ∧
    decodeTableWord 8 0x1 = some (.ldn 1) ∧
    decodeTableWord 8 0xF = some (.ldn 15) ∧
    decodeTableWord 8 0x10 = some (.inc 0) ∧
    decodeTableWord 8 0x2F = some (.dec 15) ∧
    decodeTableWord 8 0x45 = some (.lda 5) ∧
    decodeTableWord 8 0x5A = some (.str 10) ∧
    decodeTableWord 8 0x81 = some (.glo 1) ∧
    decodeTableWord 8 0x92 = some (.ghi 2) ∧
    decodeTableWord 8 0xA3 = some (.plo 3) ∧
    decodeTableWord 8 0xBC = some (.phi 12) ∧
    decodeTableWord 8 0xD3 = some (.sep 3) ∧
    decodeTableWord 8 0xE7 = some (.sex 7) := by
  decide

/-- Row 3x, first half. -/
theorem test_decode_row_3_low :
    decodeTableWord 16 0x5A30 = some (.br 0x5A) ∧
    decodeTableWord 16 0x5A31 = some (.bq 0x5A) ∧
    decodeTableWord 16 0x5A32 = some (.bz 0x5A) ∧
    decodeTableWord 16 0x5A33 = some (.bdf 0x5A) ∧
    decodeTableWord 16 0x5A34 = some (.b1 0x5A) ∧
    decodeTableWord 16 0x5A35 = some (.b2 0x5A) ∧
    decodeTableWord 16 0x5A36 = some (.b3 0x5A) ∧
    decodeTableWord 16 0x5A37 = some (.b4 0x5A) := by
  decide

/-- Row 3x, second half. -/
theorem test_decode_row_3_high :
    decodeTableWord 8 0x38 = some .skp ∧
    decodeTableWord 16 0x5A39 = some (.bnq 0x5A) ∧
    decodeTableWord 16 0x5A3A = some (.bnz 0x5A) ∧
    decodeTableWord 16 0x5A3B = some (.bnf 0x5A) ∧
    decodeTableWord 16 0x5A3C = some (.bn1 0x5A) ∧
    decodeTableWord 16 0x5A3D = some (.bn2 0x5A) ∧
    decodeTableWord 16 0x5A3E = some (.bn3 0x5A) ∧
    decodeTableWord 16 0x5A3F = some (.bn4 0x5A) := by
  decide

/-- Row 6x, first half. -/
theorem test_decode_row_6_low :
    decodeTableWord 8 0x60 = some .irx ∧
    decodeTableWord 8 0x61 = some .out1 ∧
    decodeTableWord 8 0x62 = some .out2 ∧
    decodeTableWord 8 0x63 = some .out3 ∧
    decodeTableWord 8 0x64 = some .out4 ∧
    decodeTableWord 8 0x65 = some .out5 ∧
    decodeTableWord 8 0x66 = some .out6 ∧
    decodeTableWord 8 0x67 = some .out7 := by
  decide

/-- Row 6x, second half. -/
theorem test_decode_row_6_high :
    decodeTableWord 8 0x68 = some .undefined ∧
    decodeTableWord 8 0x69 = some .inp1 ∧
    decodeTableWord 8 0x6A = some .inp2 ∧
    decodeTableWord 8 0x6B = some .inp3 ∧
    decodeTableWord 8 0x6C = some .inp4 ∧
    decodeTableWord 8 0x6D = some .inp5 ∧
    decodeTableWord 8 0x6E = some .inp6 ∧
    decodeTableWord 8 0x6F = some .inp7 := by
  decide

/-- Row 7x, first half. -/
theorem test_decode_row_7_low :
    decodeTableWord 8 0x70 = some .ret ∧
    decodeTableWord 8 0x71 = some .dis ∧
    decodeTableWord 8 0x72 = some .ldxa ∧
    decodeTableWord 8 0x73 = some .stxd ∧
    decodeTableWord 8 0x74 = some .adc ∧
    decodeTableWord 8 0x75 = some .sdb ∧
    decodeTableWord 8 0x76 = some .shrc ∧
    decodeTableWord 8 0x77 = some .smb := by
  decide

/-- Row 7x, second half. -/
theorem test_decode_row_7_high :
    decodeTableWord 8 0x78 = some .sav ∧
    decodeTableWord 8 0x79 = some .mark ∧
    decodeTableWord 8 0x7A = some .req ∧
    decodeTableWord 8 0x7B = some .seq ∧
    decodeTableWord 16 0x5A7C = some (.adci 0x5A) ∧
    decodeTableWord 16 0x5A7D = some (.sdbi 0x5A) ∧
    decodeTableWord 8 0x7E = some .shlc ∧
    decodeTableWord 16 0x5A7F = some (.smbi 0x5A) := by
  decide

/-- Row Cx, first half. -/
theorem test_decode_row_C_low :
    decodeTableWord 24 0x3412C0 = some (.lbr 0x1234) ∧
    decodeTableWord 24 0x3412C1 = some (.lbq 0x1234) ∧
    decodeTableWord 24 0x3412C2 = some (.lbz 0x1234) ∧
    decodeTableWord 24 0x3412C3 = some (.lbdf 0x1234) ∧
    decodeTableWord 8 0xC4 = some .nop ∧
    decodeTableWord 8 0xC5 = some .lsnq ∧
    decodeTableWord 8 0xC6 = some .lsnz ∧
    decodeTableWord 8 0xC7 = some .lsnf := by
  decide

/-- Row Cx, second half. -/
theorem test_decode_row_C_high :
    decodeTableWord 8 0xC8 = some .lskp ∧
    decodeTableWord 24 0x3412C9 = some (.lbnq 0x1234) ∧
    decodeTableWord 24 0x3412CA = some (.lbnz 0x1234) ∧
    decodeTableWord 24 0x3412CB = some (.lbnf 0x1234) ∧
    decodeTableWord 8 0xCC = some .lsie ∧
    decodeTableWord 8 0xCD = some .lsq ∧
    decodeTableWord 8 0xCE = some .lsz ∧
    decodeTableWord 8 0xCF = some .lsdf := by
  decide

/-- Row Fx, first half. -/
theorem test_decode_row_F_low :
    decodeTableWord 8 0xF0 = some .ldx ∧
    decodeTableWord 8 0xF1 = some .or ∧
    decodeTableWord 8 0xF2 = some .and ∧
    decodeTableWord 8 0xF3 = some .xor ∧
    decodeTableWord 8 0xF4 = some .add ∧
    decodeTableWord 8 0xF5 = some .sd ∧
    decodeTableWord 8 0xF6 = some .shr ∧
    decodeTableWord 8 0xF7 = some .sm := by
  decide

/-- Row Fx, second half. -/
theorem test_decode_row_F_high :
    decodeTableWord 16 0x5AF8 = some (.ldi 0x5A) ∧
    decodeTableWord 16 0x5AF9 = some (.ori 0x5A) ∧
    decodeTableWord 16 0x5AFA = some (.ani 0x5A) ∧
    decodeTableWord 16 0x5AFB = some (.xri 0x5A) ∧
    decodeTableWord 16 0x5AFC = some (.adi 0x5A) ∧
    decodeTableWord 16 0x5AFD = some (.sdi 0x5A) ∧
    decodeTableWord 8 0xFE = some .shl ∧
    decodeTableWord 16 0x5AFF = some (.smi 0x5A) := by
  decide

/-- Bits above `nbits` are 0, and a lone byte that wants an operand is no instruction. -/
theorem test_decode_short_word : decodeTableWord 8 0x5AF8 = some (.ldi 0) ∧ decode [0xF8] = .error (.truncated 0xF8) ∧
    decode [0xC0, 0x12] = .error (.truncated 0xC0) ∧ decode [] = .error .noByte := by decide

/-- A long branch's high byte comes first. -/
theorem test_encode_words : encode (.lbr 0x1234) = [0xC0, 0x12, 0x34] ∧ encode (.ldi 0x55) = [0xF8, 0x55] ∧
    encode (.str 10) = [0x5A] ∧ encode .out4 = [0x64] ∧ encode .inp4 = [0x6C] := by decide

/-! ### One step of each instruction (95_test_vectors.md, parts 2 to 7) -/

theorem test_A1_or : after [0xF1] { base with d := 0xf, df := true, mem := [(0x100, 0x30)] }
    (fun s t => getReg t 0 == 0x11 && t.d == 0x3f && t.cycles == 2 && t.df == s.df) = true := by decide
theorem test_A2_and : after [0xF2] { base with d := 0x3c, mem := [(0x100, 0xf)] }
    (fun s t => getReg t 0 == 0x11 && t.d == 0xc && t.cycles == 2 && t.df == s.df) = true := by decide
theorem test_A4_xor : after [0xF3] { base with d := 0x5a, df := true, mem := [(0x100, 0x5a)] }
    (fun s t => getReg t 0 == 0x11 && t.d == 0 && t.cycles == 2 && t.df == s.df) = true := by decide
theorem test_A5_ori : after [0xF9, 0x80] { base with d := 1 }
    (fun s t => getReg t 0 == 0x12 && t.d == 0x81 && t.cycles == 2 && t.df == s.df) = true := by decide
theorem test_A6_ani : after [0xFA, 0x0F] { base with d := 0xa7 }
    (fun s t => getReg t 0 == 0x12 && t.d == 7 && t.cycles == 2 && t.df == s.df) = true := by decide
theorem test_A7_xri : after [0xFB, 0x55] { base with d := 0x55 }
    (fun s t => getReg t 0 == 0x12 && t.d == 0 && t.cycles == 2 && t.df == s.df) = true := by decide
theorem test_A9_add : after [0xF4] { base with d := 0xc2, mem := [(0x100, 0x83)] }
    (fun _ t => getReg t 0 == 0x11 && t.d == 0x45 && t.df && t.cycles == 2) = true := by decide
theorem test_A11_add : after [0xF4] { base with df := true, mem := [] }
    (fun s t => getReg t 0 == 0x11 && !t.df && t.cycles == 2 && t.d == s.d) = true := by decide
theorem test_A12_adi : after [0xFC, 0x01] { base with d := 0xff }
    (fun _ t => getReg t 0 == 0x12 && t.d == 0 && t.df && t.cycles == 2) = true := by decide
theorem test_A13_adc : after [0x74] { base with d := 0x3a, df := true, mem := [(0x100, 0xc5)] }
    (fun s t => getReg t 0 == 0x11 && t.d == 0 && t.cycles == 2 && t.df == s.df) = true := by decide
theorem test_A15_adc : after [0x74] { base with d := 0x10, mem := [(0x100, 0x20)] }
    (fun s t => getReg t 0 == 0x11 && t.d == 0x30 && t.cycles == 2 && t.df == s.df) = true := by decide
theorem test_A16_adci : after [0x7C, 0x00] { base with d := 0x12, df := true }
    (fun _ t => getReg t 0 == 0x12 && t.d == 0x13 && !t.df && t.cycles == 2) = true := by decide
theorem test_A18_sd : after [0xF5] { base with d := 0x42, mem := [(0x100, 0x20)] }
    (fun s t => getReg t 0 == 0x11 && t.d == 0xde && t.cycles == 2 && t.df == s.df) = true := by decide
theorem test_A20_sd : after [0xF5] { base with mem := [] }
    (fun s t => getReg t 0 == 0x11 && t.df && t.cycles == 2 && t.d == s.d) = true := by decide
theorem test_A22_sdi : after [0xFD, 0x00] { base with d := 1 }
    (fun s t => getReg t 0 == 0x12 && t.d == 0xff && t.cycles == 2 && t.df == s.df) = true := by decide
theorem test_A23_sdb : after [0x75] { base with d := 0x20, mem := [(0x100, 0x40)] }
    (fun _ t => getReg t 0 == 0x11 && t.d == 0x1f && t.df && t.cycles == 2) = true := by decide
theorem test_A25_sdb : after [0x75] { base with d := 0x10, mem := [(0x100, 0x10)] }
    (fun s t => getReg t 0 == 0x11 && t.d == 0xff && t.cycles == 2 && t.df == s.df) = true := by decide
theorem test_A26_sdbi : after [0x7D, 0x00] base
    (fun s t => getReg t 0 == 0x12 && t.d == 0xff && t.cycles == 2 && t.df == s.df) = true := by decide
theorem test_A28_sm : after [0xF7] { base with d := 0x20, mem := [(0x100, 0x42)] }
    (fun s t => getReg t 0 == 0x11 && t.d == 0xde && t.cycles == 2 && t.df == s.df) = true := by decide
theorem test_A32_smb : after [0x77] { base with d := 0x12, mem := [(0x100, 4)] }
    (fun _ t => getReg t 0 == 0x11 && t.d == 0xd && t.df && t.cycles == 2) = true := by decide
theorem test_A35_smb : after [0x77] { base with mem := [] }
    (fun s t => getReg t 0 == 0x11 && t.d == 0xff && t.cycles == 2 && t.df == s.df) = true := by decide
theorem test_A38_smi : after [0xFF, 0x01] base
    (fun s t => getReg t 0 == 0x12 && t.d == 0xff && t.cycles == 2 && t.df == s.df) = true := by decide
theorem test_A40_smbi : after [0x7F, 0x01] { base with d := 0x10, df := true }
    (fun s t => getReg t 0 == 0x12 && t.d == 0xf && t.cycles == 2 && t.df == s.df) = true := by decide
theorem test_A43_shr : after [0xF6] { base with df := true }
    (fun s t => getReg t 0 == 0x11 && !t.df && t.cycles == 2 && t.d == s.d) = true := by decide
theorem test_A45_shrc : after [0x76] { base with d := 2, df := true }
    (fun _ t => getReg t 0 == 0x11 && t.d == 0x81 && !t.df && t.cycles == 2) = true := by decide
theorem test_A48_shl : after [0xFE] { base with d := 0x40, df := true }
    (fun _ t => getReg t 0 == 0x11 && t.d == 0x80 && !t.df && t.cycles == 2) = true := by decide
theorem test_A49_shlc : after [0x7E] { base with d := 0x40, df := true }
    (fun _ t => getReg t 0 == 0x11 && t.d == 0x81 && !t.df && t.cycles == 2) = true := by decide
theorem test_L1_ldn : after [0x03]
      { base with regs := regsOf [(0, 0x10), (2, 0x100), (3, 0x100)], mem := [(0x100, 0x7e)] }
    (fun s t => getReg t 0 == 0x11 && t.d == 0x7e && t.cycles == 2 && t.df == s.df) = true := by decide
theorem test_L5_lda : after [0x45]
      { base with regs := regsOf [(0, 0x10), (2, 0x100), (5, 0xffff)], mem := [(0xffff, 0x9a)] }
    (fun s t => getReg t 0 == 0x11 && getReg t 5 == 0 && t.d == 0x9a && t.cycles == 2 &&
      t.df == s.df) = true := by decide
theorem test_L6_lda : after [0x40, 0x77] base
    (fun s t => getReg t 0 == 0x12 && t.d == 0x77 && t.cycles == 2 && t.df == s.df) = true := by decide
theorem test_L8_ldx : after [0xF0] { base with mem := [(0x100, 0xaa)] }
    (fun s t => getReg t 0 == 0x11 && t.d == 0xaa && t.cycles == 2 && t.df == s.df) = true := by decide
theorem test_L10_ldxa : after [0x72] { base with regs := regsOf [(0, 0x10), (2, 0xffff)], mem := [(0xffff, 0x44)] }
    (fun s t => getReg t 0 == 0x11 && getReg t 2 == 0 && t.d == 0x44 && t.cycles == 2 &&
      t.df == s.df) = true := by decide
theorem test_L11_ldi : after [0xF8, 0x55] { base with df := true }
    (fun s t => getReg t 0 == 0x12 && t.d == 0x55 && t.cycles == 2 && t.df == s.df) = true := by decide
theorem test_L12_str : after [0x54] { base with regs := regsOf [(0, 0x10), (2, 0x100), (4, 0x200)], d := 0x9c }
    (fun s t => getReg t 0 == 0x11 && readByte t 0x200 == 0x9c && t.cycles == 2 && t.df == s.df &&
      t.d == s.d) = true := by decide
theorem test_L13_str : after [0x54]
      { base with regs := regsOf [(0, 0x10), (2, 0x100), (4, 0x200)], d := 0x9c, mp := true, mem := [(0x200, 0x11)] }
    (fun s t => getReg t 0 == 0x11 && t.cycles == 2 && t.mem == s.mem && t.df == s.df &&
      t.d == s.d) = true := by decide
theorem test_L16_stxd : after [0x73] { base with d := 0x5a, mp := true }
    (fun s t => getReg t 0 == 0x11 && getReg t 2 == 0xff && t.cycles == 2 && t.mem == s.mem && t.df == s.df &&
      t.d == s.d) = true := by decide
theorem test_L17_stxd : after [0x73] { base with regs := regsOf [(0, 0x10)], d := 0x5a }
    (fun s t => getReg t 0 == 0x11 && getReg t 2 == 0xffff && readByte t 0 == 0x5a && t.cycles == 2 &&
      t.df == s.df && t.d == s.d) = true := by decide
theorem test_L19_irx : after [0x60] { base with x := 0 }
    (fun s t => getReg t 0 == 0x12 && t.cycles == 2 && t.df == s.df && t.d == s.d) = true := by decide
theorem test_L21_inc : after [0x17] { base with regs := regsOf [(0, 0x10), (2, 0x100), (7, 0xffff)] }
    (fun s t => getReg t 0 == 0x11 && getReg t 7 == 0 && t.cycles == 2 && t.df == s.df &&
      t.d == s.d) = true := by decide
theorem test_L24_dec : after [0x21] base
    (fun s t => getReg t 0 == 0x11 && getReg t 1 == 0xffff && t.cycles == 2 && t.df == s.df &&
      t.d == s.d) = true := by decide
theorem test_L26_glo : after [0x81] { base with regs := regsOf [(0, 0x10), (1, 0x1234), (2, 0x100)] }
    (fun s t => getReg t 0 == 0x11 && t.d == 0x34 && t.cycles == 2 && t.df == s.df) = true := by decide
theorem test_L27_ghi : after [0x91] { base with regs := regsOf [(0, 0x10), (1, 0x1234), (2, 0x100)] }
    (fun s t => getReg t 0 == 0x11 && t.d == 0x12 && t.cycles == 2 && t.df == s.df) = true := by decide
theorem test_L28_plo : after [0xA1] { base with regs := regsOf [(0, 0x10), (1, 0xab00), (2, 0x100)], d := 3 }
    (fun s t => getReg t 0 == 0x11 && getReg t 1 == 0xab03 && t.cycles == 2 && t.df == s.df &&
      t.d == s.d) = true := by decide
theorem test_L29_phi : after [0xB1] { base with regs := regsOf [(0, 0x10), (1, 0xab03), (2, 0x100)], d := 2 }
    (fun s t => getReg t 0 == 0x11 && getReg t 1 == 0x203 && t.cycles == 2 && t.df == s.df &&
      t.d == s.d) = true := by decide
theorem test_B2_br : after [0x30, 0x00] { base with regs := regsOf [(0, 0x1fe), (2, 0x100)] }
    (fun s t => getReg t 0 == 0x100 && t.cycles == 2 && t.df == s.df && t.d == s.d) = true := by decide
theorem test_B3_br : after [0x30, 0x34] { base with regs := regsOf [(0, 0x1ff), (2, 0x100)] }
    (fun s t => getReg t 0 == 0x234 && t.cycles == 2 && t.df == s.df && t.d == s.d) = true := by decide
theorem test_B5_bq : after [0x31, 0x80] { base with q := true }
    (fun s t => getReg t 0 == 0x80 && t.cycles == 2 && t.df == s.df && t.d == s.d) = true := by decide
theorem test_B8_bz : after [0x32, 0x40] { base with d := 1 }
    (fun s t => getReg t 0 == 0x12 && t.cycles == 2 && t.df == s.df && t.d == s.d) = true := by decide
theorem test_B10_bdf : after [0x33, 0x40] { base with df := true }
    (fun s t => getReg t 0 == 0x40 && t.cycles == 2 && t.df == s.df && t.d == s.d) = true := by decide
theorem test_B13_b1 : after [0x34, 0x30] { base with ef := #v[false, true, true, true] }
    (fun s t => getReg t 0 == 0x12 && t.cycles == 2 && t.df == s.df && t.d == s.d) = true := by decide
theorem test_B14_b2 : after [0x35, 0x30] { base with ef := #v[false, true, false, false] }
    (fun s t => getReg t 0 == 0x30 && t.cycles == 2 && t.df == s.df && t.d == s.d) = true := by decide
theorem test_B15_b3 : after [0x36, 0x30] { base with ef := #v[false, false, true, false] }
    (fun s t => getReg t 0 == 0x30 && t.cycles == 2 && t.df == s.df && t.d == s.d) = true := by decide
theorem test_B16_b4 : after [0x37, 0x30] { base with ef := #v[false, false, false, true] }
    (fun s t => getReg t 0 == 0x30 && t.cycles == 2 && t.df == s.df && t.d == s.d) = true := by decide
theorem test_B18_skp : after [0x38, 0x68] base
    (fun s t => getReg t 0 == 0x12 && t.cycles == 2 && t.df == s.df && t.d == s.d) = true := by decide
theorem test_B20_bnq : after [0x39, 0x80] { base with q := true }
    (fun s t => getReg t 0 == 0x12 && t.cycles == 2 && t.df == s.df && t.d == s.d) = true := by decide
theorem test_B22_bnz : after [0x3A, 0x06] base
    (fun s t => getReg t 0 == 0x12 && t.cycles == 2 && t.df == s.df && t.d == s.d) = true := by decide
theorem test_B24_bnf : after [0x3B, 0x40] { base with df := true }
    (fun s t => getReg t 0 == 0x12 && t.cycles == 2 && t.df == s.df && t.d == s.d) = true := by decide
theorem test_B26_bn1 : after [0x3C, 0x10] { base with ef := #v[true, false, false, false] }
    (fun s t => getReg t 0 == 0x12 && t.cycles == 2 && t.df == s.df && t.d == s.d) = true := by decide
theorem test_B27_bn2 : after [0x3D, 0x30] base
    (fun s t => getReg t 0 == 0x30 && t.cycles == 2 && t.df == s.df && t.d == s.d) = true := by decide
theorem test_B28_bn3 : after [0x3E, 0x30] base
    (fun s t => getReg t 0 == 0x30 && t.cycles == 2 && t.df == s.df && t.d == s.d) = true := by decide
theorem test_B29_bn4 : after [0x3F, 0x30] base
    (fun s t => getReg t 0 == 0x30 && t.cycles == 2 && t.df == s.df && t.d == s.d) = true := by decide
theorem test_B32_lbr : after [0xC0, 0x12, 0x34] { base with regs := regsOf [(0, 0xfffe), (2, 0x100)] }
    (fun s t => getReg t 0 == 0x1234 && t.cycles == 3 && t.df == s.df && t.d == s.d) = true := by decide
theorem test_B34_lbq : after [0xC1, 0x02, 0x00] base
    (fun s t => getReg t 0 == 0x13 && t.cycles == 3 && t.df == s.df && t.d == s.d) = true := by decide
theorem test_B35_lbz : after [0xC2, 0x02, 0x00] base
    (fun s t => getReg t 0 == 0x200 && t.cycles == 3 && t.df == s.df && t.d == s.d) = true := by decide
theorem test_B38_lbdf : after [0xC3, 0x02, 0x00] base
    (fun s t => getReg t 0 == 0x13 && t.cycles == 3 && t.df == s.df && t.d == s.d) = true := by decide
theorem test_B39_nop : after [0xC4] { base with d := 0x77, df := true }
    (fun s t => getReg t 0 == 0x11 && t.cycles == 3 && t.df == s.df && t.d == s.d) = true := by decide
theorem test_B41_lsnq : after [0xC5] { base with q := true }
    (fun s t => getReg t 0 == 0x11 && t.cycles == 3 && t.df == s.df && t.d == s.d) = true := by decide
theorem test_B42_lsnz : after [0xC6] { base with d := 1 }
    (fun s t => getReg t 0 == 0x13 && t.cycles == 3 && t.df == s.df && t.d == s.d) = true := by decide
theorem test_B45_lsnf : after [0xC7] { base with df := true }
    (fun s t => getReg t 0 == 0x11 && t.cycles == 3 && t.df == s.df && t.d == s.d) = true := by decide
theorem test_B47_lskp : after [0xC8] { base with regs := regsOf [(0, 0xffff), (2, 0x100)] }
    (fun s t => getReg t 0 == 2 && t.cycles == 3 && t.df == s.df && t.d == s.d) = true := by decide
theorem test_B48_lbnq : after [0xC9, 0x02, 0x00] base
    (fun s t => getReg t 0 == 0x200 && t.cycles == 3 && t.df == s.df && t.d == s.d) = true := by decide
theorem test_B51_lbnz : after [0xCA, 0x02, 0x00] base
    (fun s t => getReg t 0 == 0x13 && t.cycles == 3 && t.df == s.df && t.d == s.d) = true := by decide
theorem test_B53_lbnf : after [0xCB, 0x02, 0x00] { base with df := true }
    (fun s t => getReg t 0 == 0x13 && t.cycles == 3 && t.df == s.df && t.d == s.d) = true := by decide
theorem test_B54_lsie : after [0xCC] base
    (fun s t => getReg t 0 == 0x13 && t.cycles == 3 && t.df == s.df && t.d == s.d) = true := by decide
theorem test_B55_lsie : after [0xCC] { base with ie := false }
    (fun s t => getReg t 0 == 0x11 && t.cycles == 3 && t.df == s.df && t.d == s.d) = true := by decide
theorem test_B57_lsq : after [0xCD] base
    (fun s t => getReg t 0 == 0x11 && t.cycles == 3 && t.df == s.df && t.d == s.d) = true := by decide
theorem test_B58_lsz : after [0xCE] base
    (fun s t => getReg t 0 == 0x13 && t.cycles == 3 && t.df == s.df && t.d == s.d) = true := by decide
theorem test_B60_lsdf : after [0xCF] { base with df := true }
    (fun s t => getReg t 0 == 0x13 && t.cycles == 3 && t.df == s.df && t.d == s.d) = true := by decide
theorem test_C1_sep : after [0xD3] { base with regs := regsOf [(0, 0x10), (2, 0x100), (3, 0x200)] }
    (fun s t => getReg t 0 == 0x11 && t.p == 3 && t.cycles == 2 && t.df == s.df && t.d == s.d) = true := by decide
theorem test_C3_sex : after [0xE5] base
    (fun s t => getReg t 0 == 0x11 && t.x == 5 && t.cycles == 2 && t.df == s.df && t.d == s.d) = true := by decide
theorem test_C5_ret : after [0x70] { base with ie := false, mem := [(0x100, 0x23)] }
    (fun s t => getReg t 0 == 0x11 && getReg t 2 == 0x101 && t.p == 3 && t.ie && t.cycles == 2 && t.df == s.df &&
      t.d == s.d) = true := by decide
theorem test_C6_ret : after [0x70]
      { base with regs := regsOf [(0, 0x10), (2, 0x100), (5, 0x300)], x := 5, ie := false, mem := [(0x300, 0x20)] }
    (fun s t => getReg t 0 == 0x11 && getReg t 5 == 0x301 && t.x == 2 && t.ie && t.cycles == 2 && t.df == s.df &&
      t.d == s.d) = true := by decide
theorem test_C7_dis : after [0x71] { base with mem := [(0x100, 0x20)] }
    (fun s t => getReg t 0 == 0x11 && getReg t 2 == 0x101 && !t.ie && t.cycles == 2 && t.df == s.df &&
      t.d == s.d) = true := by decide
theorem test_C8_dis : after [0x71, 0x00] { base with x := 0 }
    (fun s t => getReg t 0 == 0x12 && !t.ie && t.cycles == 2 && t.df == s.df && t.d == s.d) = true := by decide
theorem test_C10_mark : after [0x79] { base with regs := regsOf [(0, 0x10), (2, 0x1ff), (3, 0x400)], p := 3, x := 5 }
    (fun s t => getReg t 2 == 0x1fe && getReg t 3 == 0x401 && t.t == 0x53 && t.x == 3 &&
      readByte t 0x1ff == 0x53 && t.cycles == 2 && t.df == s.df && t.d == s.d) = true := by decide
theorem test_C13_mark : after [0x79]
      { base with regs := regsOf [(0, 0x10), (2, 0x1ff), (3, 0x400)], p := 3, x := 5, mp := true }
    (fun s t => getReg t 2 == 0x1fe && getReg t 3 == 0x401 && t.t == 0x53 && t.x == 3 && t.cycles == 2 &&
      t.mem == s.mem && t.df == s.df && t.d == s.d) = true := by decide
theorem test_C15_sav : after [0x78]
      { base with regs := regsOf [(0, 0x10), (2, 0x100), (4, 0x222)], t := 0x53, x := 4 }
    (fun s t => getReg t 0 == 0x11 && readByte t 0x222 == 0x53 && t.cycles == 2 && t.df == s.df &&
      t.d == s.d) = true := by decide
theorem test_C16_sav : after [0x78] { base with t := 0x53, mp := true, mem := [(0x100, 0x11)] }
    (fun s t => getReg t 0 == 0x11 && t.cycles == 2 && t.mem == s.mem && t.df == s.df &&
      t.d == s.d) = true := by decide
theorem test_C17_idl : after [0x00] base
    (fun s t => getReg t 0 == 0x11 && t.idle && t.cycles == 2 && t.df == s.df && t.d == s.d) = true := by decide
theorem test_I1_out_1 : after [0x61] { base with mem := [(0x100, 0xaa)] }
    (fun s t => getReg t 0 == 0x11 && getReg t 2 == 0x101 && t.outPort[0] == 0xaa && t.cycles == 2 &&
      t.df == s.df && t.d == s.d && t.events == [.portChanged 0 0xaa]) = true := by decide
theorem test_I2_out_7 : after [0x67] { base with mem := [(0x100, 1)] }
    (fun s t => getReg t 0 == 0x11 && getReg t 2 == 0x101 && t.outPort[6] == 1 && t.cycles == 2 &&
      t.df == s.df && t.d == s.d && t.events == [.portChanged 6 1]) = true := by decide
theorem test_I3_out_1 : after [0x61] { base with outPort := #v[0xaa, 0, 0, 0, 0, 0, 0], mem := [(0x100, 0xaa)] }
    (fun s t => getReg t 0 == 0x11 && getReg t 2 == 0x101 && t.cycles == 2 && t.df == s.df && t.d == s.d &&
      t.events == []) = true := by decide
theorem test_I4_out_4 : after [0x64, 0x7B] { base with x := 0 }
    (fun s t => getReg t 0 == 0x12 && t.outPort[3] == 0x7b && t.cycles == 2 && t.df == s.df && t.d == s.d &&
      t.events == [.portChanged 3 0x7b]) = true := by decide
theorem test_I5_out_3 : after [0x63, 0x7B] { base with x := 0 }
    (fun s t => getReg t 0 == 0x12 && t.outPort[2] == 0x7b && t.cycles == 2 && t.df == s.df && t.d == s.d &&
      t.events == [.portChanged 2 0x7b]) = true := by decide
theorem test_I6_out_2 : after [0x62] { base with regs := regsOf [(0, 0x10), (2, 0xffff)], mem := [(0xffff, 0x10)] }
    (fun s t => getReg t 0 == 0x11 && getReg t 2 == 0 && t.outPort[1] == 0x10 && t.cycles == 2 && t.df == s.df &&
      t.d == s.d && t.events == [.portChanged 1 0x10]) = true := by decide
theorem test_I7_inp_1 : after [0x69] { base with inPort := #v[0x5c, 0, 0, 0, 0, 0, 0], mem := [(0x100, 0x11)] }
    (fun s t => getReg t 0 == 0x11 && t.d == 0x5c && readByte t 0x100 == 0x5c && t.cycles == 2 && t.df == s.df &&
      t.events == []) = true := by decide
theorem test_I8_inp_7 : after [0x6F] { base with inPort := #v[0, 0, 0, 0, 0, 0, 0xe7] }
    (fun s t => getReg t 0 == 0x11 && t.d == 0xe7 && readByte t 0x100 == 0xe7 && t.cycles == 2 && t.df == s.df &&
      t.events == []) = true := by decide
theorem test_I9_inp_2 : after [0x6A]
      { base with mp := true, inPort := #v[0, 0x5c, 0, 0, 0, 0, 0], mem := [(0x100, 0x11)] }
    (fun s t => getReg t 0 == 0x11 && t.d == 0x5c && t.cycles == 2 && t.mem == s.mem && t.df == s.df &&
      t.events == []) = true := by decide
theorem test_I10_inp_3 : after [0x6B]
      { base with inPort := #v[0, 0, 0x33, 0, 0, 0, 0], outPort := #v[0, 0, 0x99, 0, 0, 0, 0] }
    (fun s t => getReg t 0 == 0x11 && t.d == 0x33 && readByte t 0x100 == 0x33 && t.cycles == 2 && t.df == s.df &&
      t.events == []) = true := by decide
theorem test_I11_seq : after [0x7B] { base with q := true }
    (fun s t => getReg t 0 == 0x11 && t.cycles == 2 && t.df == s.df && t.d == s.d &&
      t.events == []) = true := by decide
theorem test_I12_seq : after [0x7B] base
    (fun s t => getReg t 0 == 0x11 && t.q && t.cycles == 2 && t.df == s.df && t.d == s.d &&
      t.events == [.qChanged true]) = true := by decide
theorem test_I13_req : after [0x7A] base
    (fun s t => getReg t 0 == 0x11 && t.cycles == 2 && t.df == s.df && t.d == s.d &&
      t.events == []) = true := by decide
theorem test_I14_req : after [0x7A] { base with q := true }
    (fun s t => getReg t 0 == 0x11 && !t.q && t.cycles == 2 && t.df == s.df && t.d == s.d &&
      t.events == [.qChanged false]) = true := by decide
theorem test_I15_inp_4 : after [0x6C, 0x00] { base with x := 0 }
    (fun s t => getReg t 0 == 0x11 && t.cycles == 2 && t.df == s.df && t.d == s.d &&
      t.events == []) = true := by decide
theorem test_F1_undefined : after [0x68, 0x00] { base with d := 0x12, df := true }
    (fun _ t => getReg t 0 == 0x11 && t.fault == some 0x68 && !t.running && t.cycles == 0) = true := by decide
theorem test_F2_undefined : after [0x68] { base with regs := regsOf [(0, 0x10), (2, 0x100), (3, 0xffff)], p := 3 }
    (fun _ t => getReg t 3 == 0 && t.fault == some 0x68 && !t.running && t.cycles == 0) = true := by decide
theorem test_F4_lskp : after [0xC8, 0x68, 0x68] base
    (fun s t => getReg t 0 == 0x13 && t.cycles == 3 && t.df == s.df && t.d == s.d) = true := by decide

/-! ### The run loop, the host, pacing (95_test_vectors.md, scenarios, parts 8 and 10) -/

/-- Scenario A's first step, from the state right after reset with nothing placed: the host runs, 00 is IDL. -/
theorem test_SA_first_step : gives (step State.reset)
    (fun t => t.idle && t.cycles == 2 && getReg t 0 == 1 && t.running) = true := by decide

/-- Scenario E, the decode fault out of run(). -/
theorem test_SE_fault : gives (step (State.reset.withFetchWord 8 0x68))
    (fun t => t.fault == some 0x68 && getReg t 0 == 1 && t.cycles == 0 && runState t == .stopped) = true := by decide

theorem test_SE_fault_text : faultText 0x68 = "68" := by decide

/-- A state that reset changes in all seven places. -/
def beforeReset : State :=
  { base with running := false, d := 0xA5, df := true, p := 3, ie := false, q := true, cycles := 977, idle := true,
              mp := true, mem := [(0, 0x99)] }

/-- S-F: reset. -/
theorem test_SF_reset : (match hostCall .reset beforeReset with
    | .ok t => t.ie && t.x == 0 && t.p == 0 && getReg t 0 == 0 && t.cycles == 0 && !t.idle && !t.q && t.d == 0xA5 && t.df &&
      t.mp && t.mem == [(0, 0x99)] && getReg t 2 == 0x100 && t.events == [.qChanged false]
    | .error _ => false) = true := by decide

/-- X1: a single-step run is one instruction and stops. -/
theorem test_X1_single_step : gives (step { State.reset with stepMode := true, mem := [(0, 0x7B)] })
    (fun t => t.cycles == 2 && t.q && runState t == .stopped) = true := by decide

/-- X1, third call: from Idle a single-step run executes nothing. -/
theorem test_X1_idle : gives (step { State.reset with stepMode := true, idle := true, mem := [(0, 0x7B)] })
    (fun t => t.cycles == 0 && !t.q && runState t == .idle) = true := by decide

/-- X2, cap 4: at 4 cycles one more instruction runs; at 6 the run ends. -/
theorem test_X2_cap :
    gives (step (code [0xC4] { base with cycleCap := some 4, cycles := 4 })) (fun t => t.cycles == 7 && t.running) &&
    gives (step (code [0xC4] { base with cycleCap := some 4, cycles := 6 })) (fun t => t.cycles == 6 && !t.running) =
      true := by
  decide

/-- X4: a stop request ends the loop before the next instruction. -/
theorem test_X4_stop : gives (step (code [0x30, 0x10] { base with inputs := [[.stop]] }))
    (fun t => t.cycles == 0 && getReg t 0 == 0x10 && t.stopReq && runState t == .stopped) = true := by decide

/-- Part 10, checkpoints 1 to 3: the pacing variables after each. -/
theorem test_P10_checkpoints :
    (paceCheckpoint true { base with pace := ⟨2, 0, 1000⟩, clockMs := 1001 }).pace = ⟨2, 224, 1001⟩ ∧
    (paceCheckpoint true { base with pace := ⟨227, 224, 1001⟩, clockMs := 1002 }).pace = ⟨3, 224, 1002⟩ ∧
    (paceCheckpoint true { base with pace := ⟨225, 224, 1002⟩, clockMs := 1007 }).pace = ⟨1, 1120, 1007⟩ := by decide

/-- Part 10: at checkpoint 1 the clock still reads 1000, so the turn is a wait. -/
theorem test_P10_wait : paceWaits true { base with pace := ⟨2, 0, 1000⟩, clockMs := 1000 } = true := by decide

/-- R223: the second observer replaces the first and is told only of later events. -/
theorem test_observer : deliveredEvents (qWrite (installObserver { base with events := [.qChanged false] } 7) true) =
    [.qChanged true] := by decide

/-- Memory keeps its canonical form: rising addresses, no zero listed. -/
theorem test_memory_canonical : Memory.write (Memory.write [(1, 5), (9, 6)] 4 7) 9 0 = [(1, 5), (4, 7)] ∧
    Memory.wf [(1, 5), (4, 7)] = true ∧ Memory.wf [(4, 5), (1, 7)] = false ∧ Memory.wf [(1, 0)] = false ∧
    Memory.wf [(65536, 1)] = false := by decide

/-- The host's way to place an instruction changes nothing but memory in the state after reset. -/
theorem test_withFetchWord : State.reset.withFetchWord 24 0x3412C0 =
    { State.reset with mem := [(0, 0xC0), (1, 0x12), (2, 0x34)] } := by decide

/-! ### Witnesses: the hypotheses of the statements can be met -/

/-- Of the borrow and carry chains: 0x1234 and 0x0456 (95_test_vectors.md, program 2). -/
theorem witness_CarryChains_sm : ∃ s1 s2 t1 : State, s1.d = loByte 0x1234 ∧ readByte s1 (getReg s1 s1.x) = loByte 0x0456 ∧
    s2.d = hiByte 0x1234 ∧ readByte s2 (getReg s2 s2.x) = hiByte 0x0456 ∧ s2.df = t1.df ∧ exec .sm s1 = .next t1 :=
  ⟨{ base with d := 0x34, mem := [(0x100, 0x56)] }, { base with d := 0x12, df := false, mem := [(0x100, 4)] }, _,
    by decide, by decide, by decide, by decide, by decide, rfl⟩

theorem witness_CarryChains_sd : ∃ s1 s2 t1 : State, s1.d = loByte 0x0456 ∧ readByte s1 (getReg s1 s1.x) = loByte 0x1234 ∧
    s2.d = hiByte 0x0456 ∧ readByte s2 (getReg s2 s2.x) = hiByte 0x1234 ∧ s2.df = t1.df ∧ exec .sd s1 = .next t1 :=
  ⟨{ base with d := 0x56, mem := [(0x100, 0x34)] }, { base with d := 4, df := false, mem := [(0x100, 0x12)] }, _,
    by decide, by decide, by decide, by decide, by decide, rfl⟩

theorem witness_CarryChains_add : ∃ s1 s2 t1 : State, s1.d = loByte 0x12F0 ∧ readByte s1 (getReg s1 s1.x) = loByte 0x0456 ∧
    s2.d = hiByte 0x12F0 ∧ readByte s2 (getReg s2 s2.x) = hiByte 0x0456 ∧ s2.df = t1.df ∧ exec .add s1 = .next t1 :=
  ⟨{ base with d := 0xF0, mem := [(0x100, 0x56)] }, { base with d := 0x12, df := true, mem := [(0x100, 4)] }, _,
    by decide, by decide, by decide, by decide, by decide, rfl⟩

/-- LDN's condition on the register number, at the two ends of its range. -/
theorem witness_Loads : (1 : Nibble) ≠ 0 ∧ (15 : Nibble) ≠ 0 ∧ decodeOp (joinNibbles 0 15) 0 0 = .ldn 15 := by decide

theorem witness_BitThreeOfRowThree : ∃ (s t u : State) (n : Nibble), n.toNat < 8 ∧
    exec (decodeOp (joinNibbles 3 n) 0x5A 0) s = .next t ∧ exec (decodeOp (joinNibbles 3 (n + 8)) 0x5A 0) s = .next u :=
  ⟨base, _, _, 7, by decide, rfl, rfl⟩

theorem witness_BranchTargets :
    readByte (code [0x30, 0x34] { base with regs := regsOf [(0, 0x1FF)] }) 0x1FF = 0x30 ∧
    readByte (code [0xC0, 0x12, 0x34] { base with regs := regsOf [(0, 0xFFFE)] }) 0xFFFE = 0xC0 := by decide

theorem witness_RetRestoresWhatMarkPushed : ∃ s t u : State, exec .mark s = .next t ∧ s.mp = false ∧ u.mem = t.mem ∧
    getReg u u.x = getReg s 2 :=
  ⟨{ base with x := 5 }, _, { base with mem := [(0x100, 0x50)] }, rfl, by decide, by decide, by decide⟩

theorem witness_IdlEndsTheRun : ({ base with idle := true } : State).idle = true ∧ base.inputs = [] := by decide

theorem witness_OutEvents : base.outPort[3] = readByte base (getReg base base.x) ∧
    base.outPort[3] ≠ readByte { base with mem := [(0x100, 1)] } (getReg base base.x) := by decide

theorem witness_SeqReq : base.q = false ∧ ({ base with q := true } : State).q = true := by decide

theorem witness_StepKeepsTraceEdgeTriggered : TraceIsEdgeTriggered { base with q := true, events := [.qChanged true] } ∧
    ∃ t, step (code [0x7A] { base with q := true, events := [.qChanged true] }) = .next t := by
  refine ⟨⟨fun i => ⟨by simp [portHistory], by simp [portHistory]⟩, by simp [qHistory], by simp [qHistory]⟩, ?_⟩
  obtain ⟨t, ht, -⟩ := next_of_gives (o := step (code [0x7A] { base with q := true, events := [.qChanged true] }))
    (p := fun t => t.events == [.qChanged true, .qChanged false]) (by decide)
  exact ⟨t, ht⟩

theorem witness_StepOnByte68 : (code [0x68] base).inputs = [] ∧ (code [0x68] base).running = true ∧
    loopEnds (code [0x68] base) = false ∧ (code [0x68] base).stepRun = false ∧ readByte (code [0x68] base) 0x10 = 0x68 := by
  decide

theorem witness_EveryHandlerIsTotal : Instr.idl ≠ .undefined := by decide

theorem witness_StepAnswers : base.inputs = [] ∧
    hostCalls [.setExternalFlag 3 true, .setInPort 6 1, .stop] base =
      .ok { base with ef := #v[false, false, false, true], inPort := #v[0, 0, 0, 0, 0, 0, 1], stopReq := true } :=
  ⟨by decide, by rfl⟩

theorem witness_Cost : ∃ t, exec .nop base = .next t := ⟨_, rfl⟩

/-- Each clause's premise holds of some instruction that the clause names. -/
theorem witness_ControlState : gives (exec (.sep 3) base) (fun t => t.p != base.p) &&
    gives (exec .mark base) (fun t => t.x != base.x && t.t != base.t) && gives (exec .dis base) (fun t => t.ie != base.ie) &&
    gives (exec .idl base) (fun t => t.idle != base.idle) && gives (exec .seq base) (fun t => t.q != base.q) = true := by
  decide

theorem witness_WritesDF : gives (exec .sd base) (fun t => t.df != base.df) = true := by decide

theorem witness_WritesMemoryAndPorts : gives (exec (.str 2) { base with d := 1 }) (fun t => readByte t 0x100 != 0) &&
    gives (exec .out7 { base with mem := [(0x100, 1)] }) (fun t => t.outPort != base.outPort) = true := by decide

theorem witness_RegistersChange : gives (exec (.inc 7) base) (fun t => getReg t 7 != getReg base 7) &&
    gives (exec .irx base) (fun t => getReg t 2 != getReg base 2) &&
    gives (exec .mark base) (fun t => getReg t 2 != getReg base 2) &&
    gives (exec .skp base) (fun t => getReg t 0 != getReg base 0) = true := by decide

theorem witness_HostSideAndIE : Instr.lsq ≠ .lsie ∧ ∃ t, exec .lsq base = .next t := ⟨by decide, _, rfl⟩

/-- The decode premise, at the top of memory, where the operand bytes wrap. -/
theorem witness_StepRuns_decode :
    decode [readByte (code [0xC0, 0x12, 0x34] { base with regs := regsOf [(0, 0xFFFE)] }) 0xFFFE,
      readByte (code [0xC0, 0x12, 0x34] { base with regs := regsOf [(0, 0xFFFE)] }) 0xFFFF,
      readByte (code [0xC0, 0x12, 0x34] { base with regs := regsOf [(0, 0xFFFE)] }) 0] = .ok (.lbr 0x1234, []) := by decide

/-- The premises of its four clauses. -/
theorem witness_StepRuns_clauses :
    (base.inputs = [] ∧ base.running = true ∧ base.stepRun = false ∧ base.stopReq = false ∧ base.idle = false ∧
      capReached base = false) ∧
    (State.reset.inputs = [.run] :: [] ∧ State.reset.running = false ∧ State.reset.stepMode = false ∧
      State.reset.idle = false ∧ capReached State.reset = false) ∧
    (let s : State := { State.reset with stepMode := true }
     s.inputs = [.run] :: [] ∧ s.running = false ∧ s.stepMode = true ∧ s.idle = false) ∧
    (let s : State := { base with inputs := [[.setSingleStep true]] }
     let u : State := { base with inputs := [], stepMode := true }
     s.inputs = [.setSingleStep true] :: [] ∧ hostCalls [.setSingleStep true] { s with inputs := [] } = .ok u ∧
     decode [readByte u (getReg u u.p), readByte u (getReg u u.p + 1), readByte u (getReg u u.p + 2)] = .ok (.idl, [0, 0]) ∧
     u.running = true ∧ u.stepRun = false ∧ loopEnds u = false ∧ paceWaits true u = false) :=
  ⟨by decide, by decide, by decide, by decide, rfl, by decide, by decide, by decide, by decide, by decide⟩

theorem witness_StopIsObserved : base.running = true ∧ base.stepRun = false ∧
    ({ base with stopReq := true } : State).inputs = [] ∧
    ({ base with inputs := [[.stop]] } : State).inputs = [.stop] :: [] := by decide

/-- The cap's two clauses at the boundary: at the cap and one above it. -/
theorem witness_CycleCap : base.inputs = [] ∧ base.running = true ∧ base.stepRun = false ∧ base.idle = false ∧
    base.stopReq = false ∧ 4 < ({ base with cycleCap := some 4, cycles := 5 } : State).cycles ∧
    ({ base with cycleCap := some 4, cycles := 4 } : State).cycles ≤ 4 ∧
    readByte base (getReg base base.p) ≠ 0x68 := by decide

theorem witness_SingleStepRun : let s : State := { State.reset with stepMode := true }
    s.inputs = [.run] :: [] ∧ s.running = false ∧ s.stepMode = true ∧ s.idle = false ∧
      ({ s with idle := true } : State).idle = true := by decide

theorem witness_RunResumes : let s : State := code [0xC4] State.reset
    s.inputs = [.run] :: [] ∧ s.running = false ∧ s.stepMode = false ∧ runState s = .stopped ∧ capReached s = false ∧
      readByte s (getReg s s.p) = 0xC4 ∧ runState { s with idle := true } = .idle := by decide

theorem witness_CyclesNeverDecrease : base.running = true ∧ ∃ t, step base = .next t := by
  obtain ⟨t, ht, -⟩ := next_of_gives (o := step base) (p := fun t => t.idle) (by decide)
  exact ⟨by decide, t, ht⟩

theorem witness_StoredByteIsTheNextOpcode : ∃ t, exec (.str 0) base = .next t ∧ base.mp = false ∧
    getReg base 0 = getReg base base.p := ⟨_, rfl, by decide, by decide⟩

theorem witness_OutWithXEqualP : let s := code [0x64, 0x7B] { base with x := 0 }
    s.x = s.p ∧ readByte s (getReg s s.p) = BitVec.ofNat 8 (0x61 + (3 : Fin 7).val) := by decide

theorem witness_Push : let s := code [0x73] { base with x := 0 }
    let u := code [0x79] { base with p := 2 }
    (s.x = s.p ∧ readByte s (getReg s s.p) = 0x73) ∧ (u.p = 2 ∧ readByte u (getReg u u.p) = 0x79) := by decide

theorem witness_ResetWritesSevenThings : let s : State := { base with running := false }
    s.running = false ∧ s.q = false ∧ ({ s with q := true } : State).q = true := by decide

theorem witness_ForbiddenHostCalls : let s : State := { base with inputs := [[.reset], [.run]] }
    s.running = true ∧ s.inputs = (.reset :: []) :: [[.run]] := by decide

/-- The first index outside each domain, and the last inside it, which is answered. -/
theorem witness_OutOfRange : State.reset.running = false ∧
    asIndex 4 (-1) = none ∧ asIndex 4 4 = none ∧ asIndex 4 3 = some 3 ∧
    asIndex 7 (-1) = none ∧ asIndex 7 7 = none ∧ asIndex 7 6 = some 6 ∧
    asIndex 16 16 = none ∧ asIndex 16 15 = some 15 ∧ asIndex 65536 65536 = none ∧ asIndex 65536 (-1) = none := by decide

/-- The bulk write at the end of memory, clipped; its clauses at the boundary addresses. -/
theorem witness_SetBytes : let s := writeBytes State.reset 0xFFFE [1, 2, 3]
    State.reset.running = false ∧ 0xFFFE < 65536 ∧ State.reset.mp = false ∧
      ({ State.reset with mp := true } : State).mp = true ∧
      s.mem = [(0xFFFE, 1), (0xFFFF, 2)] ∧ ([1, 2, 3] : List Byte)[0xFFFF - 0xFFFE]? = some 2 := by decide

/-- No run and a run in progress, a read that is refused there, and the last register, port and address. -/
theorem witness_HostReads : State.reset.running = false ∧ base.running = true ∧
    HostQuery.isQOn ≠ .isStop ∧ HostQuery.isQOn ≠ .isIdle ∧ asIndex 16 ((15 : Nibble).toNat : Int) = some 15 ∧
    asIndex 7 ((6 : Fin 7).val : Int) = some 6 ∧ asIndex 65536 ((0xFFFF : Word).toNat : Int) = some 65535 := by decide

theorem witness_StepKeepsMemory : let s := code [0x52] { base with d := 9, mem := [(0x100, 3)] }
    MemoryCanonical s ∧ ∃ t, step s = .next t := by
  obtain ⟨t, ht, -⟩ := next_of_gives (o := step (code [0x52] { base with d := 9, mem := [(0x100, 3)] }))
    (p := fun t => t.mem == [(0x10, 0x52), (0x100, 9)]) (by decide)
  exact ⟨by unfold MemoryCanonical; decide, t, ht⟩

theorem witness_DecodeOfEncode : (Instr.ldn 15).wellFormed = true := by decide

theorem witness_EncodeOfDecode : decode [0xC0, 0x12, 0x34, 0x68] = .ok (.lbr 0x1234, [0x68]) ∧
    3 ≤ ([0xC0, 0x12, 0x34] : List Byte).length := by decide

/-- The three clauses of the checkpoint: not due at the budget itself; due, and the clock moved; due, and it stands. -/
theorem witness_Checkpoint :
    (let s : State := { base with pace := ⟨224, 224, 1001⟩ }
     s.pace.count ≤ s.pace.budget) ∧
    (let s : State := { base with pace := ⟨225, 224, 1001⟩, clockMs := 1002 }
     s.pace.budget < s.pace.count ∧ s.clockMs ≠ s.pace.lastMs) ∧
    (let s : State := { base with pace := ⟨225, 224, 1001⟩, clockMs := 1001 }
     s.pace.budget < s.pace.count ∧ s.clockMs = s.pace.lastMs ∧ s.stopReq = false ∧ s.running = true ∧
       s.stepRun = false) := by decide

/-- Three turns with a known clock: IRX, a wait, and IRX after a tick. -/
theorem witness_EmulatedTime :
    let s : State := { base with mem := [(0x10, 0x60), (0x11, 0x60)], clockMs := 1000, pace := ⟨0, 0, 1000⟩,
                                 inputs := [[], [], [.tick 1]] }
    s.running = true ∧ s.stepRun = false ∧ s.pace = ⟨0, 0, s.clockMs⟩ ∧ (∀ calls ∈ s.inputs, .run ∉ calls) ∧
      ∃ t, Sys2Proof.core.run 3 s = .next t ∧ (t.running && t.cycles == 4 && t.clockMs == 1001) = true :=
  ⟨by decide, by decide, by decide, by decide, next_of_gives (by decide)⟩

theorem witness_Pacing : base.inputs = [] ∧ SameArchitecture base { base with pace := ⟨5, 0, 7⟩, clockMs := 99 } :=
  ⟨rfl, rfl⟩

/-- A known clock at which the state waits, one at which it does not, and the free clock, on which it never does; host
calls that are answered, and some that are refused. -/
theorem witness_Pacing_clauses : let s : State := { base with pace := ⟨5, 0, 7⟩, clockMs := 7 }
    let t : State := { base with pace := ⟨5, 0, 7⟩, clockMs := 8 }
    s.running = true ∧ s.stepRun = false ∧ paceWaits true s = true ∧ paceWaits true t = false ∧
      paceWaits false s = false ∧ hostCalls [.stop] s = .ok { s with stopReq := true } ∧
      hostCalls [.stop, .run] s = .error (.hostCallDuringRun .run) := by
  refine ⟨by decide, by decide, by decide, by decide, by decide, rfl, rfl⟩

end Sys2Proof.Tests
end

section
/-! PROOFS. What an instruction writes, field by field, and its effect on the whole state as one simultaneous update.
Every claim about all instructions is read off this table: which fields an instruction can change, and what it looks at
to compute them. -/

namespace Sys2Proof.Machine

/-! ### The write set of an instruction -/

/-- What one handler writes, each value computed from the state before it: `none` is a field left alone. No handler
writes more than one general register, one byte of memory or one port; `fault` is the byte of a decode fault taken. -/
structure Writes where
  reg : Option (Nibble × Word) := none
  d : Option Byte := none
  df : Option Bool := none
  t : Option Byte := none
  p : Option Nibble := none
  x : Option Nibble := none
  ie : Option Bool := none
  q : Option Bool := none
  idle : Option Bool := none
  store : Option (Word × Byte) := none
  port : Option (Fin 7 × Byte) := none
  fault : Option Byte := none

/-- All writes at once. A store is dropped by the write-protect latch (20_memory.md R42), and the trace records a port
or the Q latch exactly when the value is new (46_io.md R220, R221). The host's side has no place in a write set. -/
def Writes.apply (w : Writes) (s : State) : State :=
  { s with
    regs := w.reg.elim s.regs fun r => (setReg s r.1 r.2).regs
    d := w.d.getD s.d
    df := w.df.getD s.df
    t := w.t.getD s.t
    p := w.p.getD s.p
    x := w.x.getD s.x
    ie := w.ie.getD s.ie
    q := w.q.getD s.q
    idle := w.idle.getD s.idle
    mem := w.store.elim s.mem fun c => if s.mp then s.mem else Memory.write s.mem c.1.toNat c.2
    outPort := w.port.elim s.outPort fun o => s.outPort.set o.1 o.2
    events := w.port.elim
      (w.q.elim s.events fun b => if s.q = b then s.events else s.events ++ [.qChanged b])
      fun o => if s.outPort[o.1] = o.2 then s.events else s.events ++ [.portChanged o.1 o.2]
    fault := w.fault.elim s.fault some
    running := w.fault.elim s.running fun _ => false }

/-- A short branch writes `R[P]` (44_branch_skip.md R160). -/
def Writes.shortBranch (c : Cond) (b : Byte) (s : State) : Writes :=
  { reg := some (s.p, if c.holds s then joinBytes (hiByte (getReg s s.p)) b else getReg s s.p + 1) }

/-- A long branch writes `R[P]` (44_branch_skip.md R161). -/
def Writes.longBranch (c : Cond) (target : Word) (s : State) : Writes :=
  { reg := some (s.p, if c.holds s then target else getReg s s.p + 2) }

/-- A long skip writes `R[P]` (44_branch_skip.md R162). -/
def Writes.longSkip (c : Cond) (s : State) : Writes :=
  { reg := some (s.p, if c.holds s then getReg s s.p + 2 else getReg s s.p) }

/-- The result of the adder or of a shift, in D and DF (42_alu.md R110). -/
def Writes.dAndDF (r : Byte × Bool) : Writes := { d := some r.1, df := some r.2 }

/-- `w`, and `R[P]` past the operand byte (30_encoding.md R63). -/
def Writes.pastOperand (s : State) (w : Writes) : Writes := { w with reg := some (s.p, getReg s s.p + 1) }

/-- `OUT` (46_io.md R224). -/
def Writes.output (k : Fin 7) (s : State) : Writes :=
  { port := some (k, memOperand s), reg := some (s.x, getReg s s.x + 1) }

/-- `INP` (46_io.md R225). -/
def Writes.input (k : Fin 7) (s : State) : Writes :=
  { store := some (getReg s s.x, s.inPort[k]), d := some s.inPort[k] }

/-- `RET` and `DIS` (45_control.md R202, R203). -/
def Writes.selectors (ie : Bool) (s : State) : Writes :=
  { reg := some (s.x, getReg s s.x + 1), x := some (hiNibble (memOperand s)), p := some (loNibble (memOperand s)),
    ie := some ie }

/-- The write set of every instruction, in the order of the opcode table. -/
def writes (i : Instr) (s : State) : Writes :=
  match i with
  | .idl => { idle := some true }
  | .ldn n => { d := some (readByte s (getReg s n)) }
  | .inc n => { reg := some (n, getReg s n + 1) }
  | .dec n => { reg := some (n, getReg s n - 1) }
  | .br b => .shortBranch .always b s
  | .bq b => .shortBranch .q b s
  | .bz b => .shortBranch .z b s
  | .bdf b => .shortBranch .df b s
  | .b1 b => .shortBranch (.ef 0) b s
  | .b2 b => .shortBranch (.ef 1) b s
  | .b3 b => .shortBranch (.ef 2) b s
  | .b4 b => .shortBranch (.ef 3) b s
  | .skp => { reg := some (s.p, getReg s s.p + 1) }
  | .bnq b => .shortBranch .nq b s
  | .bnz b => .shortBranch .nz b s
  | .bnf b => .shortBranch .nf b s
  | .bn1 b => .shortBranch (.nef 0) b s
  | .bn2 b => .shortBranch (.nef 1) b s
  | .bn3 b => .shortBranch (.nef 2) b s
  | .bn4 b => .shortBranch (.nef 3) b s
  | .lda n => { d := some (readByte s (getReg s n)), reg := some (n, getReg s n + 1) }
  | .str n => { store := some (getReg s n, s.d) }
  | .irx => { reg := some (s.x, getReg s s.x + 1) }
  | .out1 => .output 0 s
  | .out2 => .output 1 s
  | .out3 => .output 2 s
  | .out4 => .output 3 s
  | .out5 => .output 4 s
  | .out6 => .output 5 s
  | .out7 => .output 6 s
  | .inp1 => .input 0 s
  | .inp2 => .input 1 s
  | .inp3 => .input 2 s
  | .inp4 => .input 3 s
  | .inp5 => .input 4 s
  | .inp6 => .input 5 s
  | .inp7 => .input 6 s
  | .ret => .selectors true s
  | .dis => .selectors false s
  | .ldxa => { d := some (memOperand s), reg := some (s.x, getReg s s.x + 1) }
  | .stxd => { store := some (getReg s s.x, s.d), reg := some (s.x, getReg s s.x - 1) }
  | .adc => .dAndDF (add8 s.d (memOperand s) s.df)
  | .sdb => .dAndDF (add8 (~~~s.d) (memOperand s) s.df)
  | .shrc => .dAndDF (shiftRight s.d s.df)
  | .smb => .dAndDF (add8 s.d (~~~memOperand s) s.df)
  | .sav => { store := some (getReg s s.x, s.t) }
  | .mark =>
    { store := some (getReg s 2, joinNibbles s.x s.p), t := some (joinNibbles s.x s.p), x := some s.p
      reg := some (2, getReg s 2 - 1) }
  | .req => { q := some false }
  | .seq => { q := some true }
  | .adci m => .pastOperand s (.dAndDF (add8 s.d m s.df))
  | .sdbi m => .pastOperand s (.dAndDF (add8 (~~~s.d) m s.df))
  | .shlc => .dAndDF (shiftLeft s.d s.df)
  | .smbi m => .pastOperand s (.dAndDF (add8 s.d (~~~m) s.df))
  | .glo n => { d := some (loByte (getReg s n)) }
  | .ghi n => { d := some (hiByte (getReg s n)) }
  | .plo n => { reg := some (n, joinBytes (hiByte (getReg s n)) s.d) }
  | .phi n => { reg := some (n, joinBytes s.d (loByte (getReg s n))) }
  | .lbr a => .longBranch .always a s
  | .lbq a => .longBranch .q a s
  | .lbz a => .longBranch .z a s
  | .lbdf a => .longBranch .df a s
  | .nop => {}
  | .lsnq => .longSkip .nq s
  | .lsnz => .longSkip .nz s
  | .lsnf => .longSkip .nf s
  | .lskp => .longSkip .always s
  | .lbnq a => .longBranch .nq a s
  | .lbnz a => .longBranch .nz a s
  | .lbnf a => .longBranch .nf a s
  | .lsie => .longSkip .ie s
  | .lsq => .longSkip .q s
  | .lsz => .longSkip .z s
  | .lsdf => .longSkip .df s
  | .sep n => { p := some n }
  | .sex n => { x := some n }
  | .ldx => { d := some (memOperand s) }
  | .or => { d := some (s.d ||| memOperand s) }
  | .and => { d := some (s.d &&& memOperand s) }
  | .xor => { d := some (s.d ^^^ memOperand s) }
  | .add => .dAndDF (add8 s.d (memOperand s) false)
  | .sd => .dAndDF (add8 (~~~s.d) (memOperand s) true)
  | .shr => .dAndDF (shiftRight s.d false)
  | .sm => .dAndDF (add8 s.d (~~~memOperand s) true)
  | .ldi m => .pastOperand s { d := some m }
  | .ori m => .pastOperand s { d := some (s.d ||| m) }
  | .ani m => .pastOperand s { d := some (s.d &&& m) }
  | .xri m => .pastOperand s { d := some (s.d ^^^ m) }
  | .adi m => .pastOperand s (.dAndDF (add8 s.d m false))
  | .sdi m => .pastOperand s (.dAndDF (add8 (~~~s.d) m true))
  | .shl => .dAndDF (shiftLeft s.d false)
  | .smi m => .pastOperand s (.dAndDF (add8 s.d (~~~m) true))
  | .undefined => { fault := some 0x68 }

/-! ### The model's operations as write sets -/

theorem sendToPort_eq_apply (k : Fin 7) (s : State) : sendToPort k s = (Writes.output k s).apply s := by
  rw [sendToPort_eq, outPortWrite_eq]
  rfl

theorem readFromPort_eq_apply (k : Fin 7) (s : State) : readFromPort k s = (Writes.input k s).apply s := by
  rw [readFromPort_eq, writeByte_eq]
  rfl

theorem stepDown_writeByte (s : State) (a : Word) (v : Byte) (n : Nibble) :
    stepDown (writeByte s a v) n = ({ store := some (a, v), reg := some (n, getReg s n - 1) } : Writes).apply s := by
  rw [stepDown_eq, getReg_writeByte, writeByte_eq]
  rfl

theorem savePair_eq_apply (s : State) : savePair s = (writes .mark s).apply s := by
  rw [savePair_eq, writeByte_eq]
  rfl

/-- Handlers that end in `complete` answer equal states when their effects are equal. -/
theorem next_complete_congr (i : Instr) {s t : State} (h : s = t) :
    (Host.Outcome.next (complete i s) : Host.Outcome State Fault Refusal) = .next (complete i t) := by
  rw [h]

/-- Every handler answers a next state: its write set applied, and its cost. The families whose operation branches are
named, each with the lemma that makes its operation one update; in the others the handler is that update as it stands. -/
theorem exec_eq (i : Instr) (s : State) : exec i s = .next (complete i ((writes i s).apply s)) := by
  cases i
  case br | bq | bz | bdf | b1 | b2 | b3 | b4 | bnq | bnz | bnf | bn1 | bn2 | bn3 | bn4 =>
    exact next_complete_congr _ (shortBranch_eq _ _ s)
  case lbr | lbq | lbz | lbdf | lbnq | lbnz | lbnf => exact next_complete_congr _ (longBranch_eq _ _ s)
  case lsnq | lsnz | lsnf | lskp | lsie | lsq | lsz | lsdf => exact next_complete_congr _ (longSkip_eq _ s)
  case out1 | out2 | out3 | out4 | out5 | out6 | out7 => exact next_complete_congr _ (sendToPort_eq_apply _ s)
  case inp1 | inp2 | inp3 | inp4 | inp5 | inp6 | inp7 => exact next_complete_congr _ (readFromPort_eq_apply _ s)
  case str | sav => exact next_complete_congr _ (writeByte_eq s _ _)
  case stxd => exact next_complete_congr _ (stepDown_writeByte s _ _ _)
  case mark => exact next_complete_congr _ (savePair_eq_apply s)
  case req | seq => exact next_complete_congr _ (qWrite_eq s _)
  all_goals rfl

/-- The inversion of a handler. -/
theorem eq_of_exec_next {i : Instr} {s t : State} (h : exec i s = .next t) :
    t = complete i ((writes i s).apply s) := by
  rw [exec_eq] at h
  exact (Host.Outcome.next.inj h).symm

/-! ### What a write set leaves unchanged -/

@[simp] theorem Writes.apply_df (w : Writes) (s : State) : (w.apply s).df = w.df.getD s.df := rfl

@[simp] theorem Writes.apply_cycles (w : Writes) (s : State) : (w.apply s).cycles = s.cycles := rfl

@[simp] theorem Writes.getReg_apply (w : Writes) (s : State) (m : Nibble) :
    getReg (w.apply s) m = w.reg.elim (getReg s m) fun r => if m = r.1 then r.2 else getReg s m := by
  obtain ⟨_ | r⟩ := w
  · rfl
  · exact getReg_setReg s r.1 m r.2

/-- A register reads differently only if it is the one written. -/
theorem Writes.reg_of_getReg_apply_ne {w : Writes} {s : State} {m : Nibble}
    (h : getReg (w.apply s) m ≠ getReg s m) : ∃ v, w.reg = some (m, v) := by
  rw [Writes.getReg_apply] at h
  cases hw : w.reg with
  | none => exact absurd (by rw [hw]; rfl) h
  | some r =>
    by_cases hm : m = r.1
    · exact ⟨r.2, by rw [hm]⟩
    · exact absurd (by rw [hw]; exact if_neg hm) h

/-! ### DF (10_state.md R15; 42_alu.md R134) -/

/-- The rows of the table with an entry for DF. -/
theorem writes_df_ne_none {i : Instr} {s : State} (h : (writes i s).df ≠ none) :
    i = .add ∨ i = .adc ∨ (∃ b, i = .adi b) ∨ (∃ b, i = .adci b) ∨
    i = .sd ∨ i = .sdb ∨ (∃ b, i = .sdi b) ∨ (∃ b, i = .sdbi b) ∨
    i = .sm ∨ i = .smb ∨ (∃ b, i = .smi b) ∨ (∃ b, i = .smbi b) ∨
    i = .shr ∨ i = .shrc ∨ i = .shl ∨ i = .shlc := by
  cases i
  case add | adc | adi | adci | sd | sdb | sdi | sdbi | sm | smb | smi | smbi | shr | shrc | shl | shlc => simp
  all_goals exact absurd rfl h

/-- Settles O32: an instruction with no entry for DF in its write set leaves it. -/
theorem onlyArithmeticAndShiftsWriteDF : Obligations.OnlyArithmeticAndShiftsWriteDF := by
  intro i s t ht hdf
  refine writes_df_ne_none (s := s) fun hnone => hdf ?_
  rw [eq_of_exec_next ht, complete_df, Writes.apply_df, hnone, Option.getD_none]

/-! ### General registers (10_state.md R12, R13) -/

/-- The rows of the table with an entry for a general register, and which register that is. -/
theorem writes_reg_eq_some {i : Instr} {s : State} {m : Nibble} {v : Word} (h : (writes i s).reg = some (m, v)) :
    m = s.p ∨ (i = .inc m ∨ i = .dec m ∨ i = .lda m ∨ i = .plo m ∨ i = .phi m) ∨
    (m = s.x ∧ (i = .irx ∨ i = .ldxa ∨ i = .stxd ∨ i = .ret ∨ i = .dis ∨ ∃ k, i = outInstr k)) ∨
    (m = 2 ∧ i = .mark) := by
  have hm : (writes i s).reg.map Prod.fst = some m := by rw [h]; rfl
  cases i
  case inc | dec | lda | plo | phi | irx | ldxa | stxd | ret | dis | mark => cases hm; simp
  case out1 | out2 | out3 | out4 | out5 | out6 | out7 => cases hm; exact .inr (.inr (.inl ⟨rfl, by decide⟩))
  -- the other rows write `R[P]` or no register
  all_goals cases hm <;> exact .inl rfl

/-- Settles O34: the register that changed is the one in the write set. -/
theorem onlyAddressedRegistersChange : Obligations.OnlyAddressedRegistersChange := by
  intro i s t m ht hm
  rw [eq_of_exec_next ht, getReg_complete] at hm
  obtain ⟨v, hv⟩ := Writes.reg_of_getReg_apply_ne hm
  exact writes_reg_eq_some hv

/-! ### IE (10_state.md R19; 60_exceptions.md R241) -/

/-- No row of the table but `LSIE`'s looks at IE. -/
theorem writes_set_ie {i : Instr} (hi : i ≠ .lsie) (s : State) (b : Bool) :
    writes i { s with ie := b } = writes i s := by
  cases i
  case lsie => exact absurd rfl hi
  all_goals rfl

/-- Settles O36: the write set is the same whatever IE is, and of what it is applied to only IE differs. -/
theorem ieGatesNothingButLsie : Obligations.IEGatesNothingButLsie := by
  intro i s t b hi ht
  obtain rfl := eq_of_exec_next ht
  refine ⟨complete i ((writes i s).apply { s with ie := b }), ?_, rfl⟩
  rw [exec_eq, writes_set_ie hi]

/-! ### The cycle counter (10_state.md R22; 40_execution_loop.md R84) -/

theorem cost_le_three (i : Instr) : cost i ≤ 3 := by
  unfold cost
  split <;> decide

theorem exec_cycles {i : Instr} {s t : State} (h : exec i s = .next t) : t.cycles = s.cycles + cost i := by
  rw [eq_of_exec_next h, complete_cycles, Writes.apply_cycles]

theorem runInstr_cycles {s t : State} (h : runInstr s = .next t) :
    s.cycles ≤ t.cycles ∧ t.cycles ≤ s.cycles + 3 := by
  have hc := exec_cycles h
  rw [advancePc_eq, setReg_cycles] at hc
  have := cost_le_three (fetchInstr s)
  omega

/-- A turn of the CPU executes at most one instruction. -/
theorem cpuTurn_cycles {known : Bool} {s t : State} (h : cpuTurn known s = .next t) :
    s.cycles ≤ t.cycles ∧ t.cycles ≤ s.cycles + 3 := by
  rcases cpuTurn_cases h with ⟨-, rfl⟩ | ⟨-, -, -, rfl⟩ | ⟨-, -, -, u, hu, rfl⟩ | ⟨-, -, -, rfl⟩ |
    ⟨-, -, -, -, rfl⟩ | ⟨-, -, -, -, u, hu, rfl⟩
  · simp
  · simp
  · simpa using runInstr_cycles hu
  · simp
  · simp
  · simpa using runInstr_cycles hu

/-- The calls that the contract allows during a run neither end it nor touch the cycle counter. -/
theorem hostCalls_running_cycles {cs : List HostCall} {s t : State} (h : hostCalls cs s = .ok t)
    (hr : s.running = true) : t.running = true ∧ t.cycles = s.cycles := by
  refine hostCalls_induction (I := fun u => u.running = true ∧ u.cycles = s.cycles) ?_ h ⟨hr, rfl⟩
  intro c u u' hc hu
  rcases hostCall_ok_running hc hu.1 with ⟨-, rfl⟩ | ⟨-, -, rfl⟩ | ⟨-, -, -, -, -, rfl⟩ | ⟨-, -, -, -, -, rfl⟩ |
    ⟨-, -, rfl⟩ <;> exact hu

/-- Settles O42: the calls of a boundary during a run leave the counter, and the turn after them adds the cost of at
most one instruction. -/
theorem cyclesNeverDecreaseWithinARun : Obligations.CyclesNeverDecreaseWithinARun := by
  intro s t hr h
  rcases step_cases h with ⟨-, ht⟩ | ⟨calls, rest, u, -, hu, ht⟩
  · exact cpuTurn_cycles ht
  · have hcycles : u.cycles = s.cycles := (hostCalls_running_cycles hu hr).2
    rw [← hcycles]
    exact cpuTurn_cycles ht

/-! ### The state right after reset (10_state.md R33; 70_reset_and_hazards.md R260, R262) -/

theorem hostCall_reset {s : State} (h : s.running = false) : hostCall .reset s = .ok (resetCpu s) := by
  simp [hostCall, hostEffect, h]

/-- `reset()` clears `R[0]` and keeps the other registers. -/
theorem getReg_resetCpu (s : State) (m : Nibble) : getReg (resetCpu s) m = if m = 0 then 0 else getReg s m := by
  rw [← getReg_setReg]
  exact getReg_congr (by simp [resetCpu_eq]) m

/-- Settles O47: reset at the constructed state is `resetCpu`, whose fields are those of its one update. -/
theorem resetStateIsAsTheSpecSays : Obligations.ResetStateIsAsTheSpecSays := by
  refine ⟨fun init => ⟨_, hostCall_reset rfl, ?_⟩, Init.zero, _, hostCall_reset rfl, reset_eq⟩
  have hregs := getReg_resetCpu (State.construct init)
  rw [resetCpu_eq] at hregs ⊢
  exact ⟨(hregs 0).trans (if_pos rfl), rfl, rfl, rfl, rfl, rfl, rfl, rfl, rfl, rfl, rfl, rfl, rfl, rfl, rfl, rfl, rfl,
    rfl, rfl, rfl, fun m hm => (hregs m).trans (if_neg hm)⟩

/-! ### The invariants at reset (20_memory.md R40; 46_io.md R222) -/

/-- A history in which nothing is recorded agrees with whatever the register holds. -/
theorem edgeHistory_nil {α : Type} (now : α) : EdgeHistory [] now :=
  ⟨.nil, fun _ h => nomatch h⟩

/-- Settles O53: at reset memory lists no byte and the trace no event. -/
theorem resetMeetsTheInvariants : Obligations.ResetMeetsTheInvariants :=
  ⟨rfl, fun _ => edgeHistory_nil _, edgeHistory_nil _⟩

end Sys2Proof.Machine
end

section
/-! PROOFS. Memory (20_memory.md): what a host call and an instruction can do to it, that every step keeps its canonical
form, which instructions write it, the bulk write, and a store seen by the next fetch. -/

namespace Sys2Proof.Machine

/-! ### What changes memory -/

/-- Of the host's calls only `setByte` and `setBytes` touch memory (60_exceptions.md R252). -/
theorem hostEffect_mem {c : HostCall} {s t : State} (h : hostEffect c s = some t) :
    t.mem = s.mem ∨ (∃ a v, t = writeByte s a v) ∨ ∃ o bs, t = writeBytes s o bs := by
  cases c
  case setByte =>
    obtain ⟨k, -, rfl⟩ := Option.map_eq_some_iff.mp h
    exact .inr (.inl ⟨_, _, rfl⟩)
  case setBytes =>
    obtain ⟨k, -, rfl⟩ := Option.map_eq_some_iff.mp h
    exact .inr (.inr ⟨_, _, rfl⟩)
  case setExternalFlag | setInPort =>
    obtain ⟨k, -, rfl⟩ := Option.map_eq_some_iff.mp h
    exact .inl rfl
  case setOutPort =>
    obtain ⟨k, -, rfl⟩ := Option.map_eq_some_iff.mp h
    exact .inl (outPortWrite_mem s k _)
  case run =>
    cases h
    exact .inl (enterRun_mem s)
  case reset =>
    cases h
    rw [resetCpu_eq]
    exact .inl rfl
  case setQ =>
    cases h
    exact .inl (qWrite_mem s _)
  all_goals
    cases h
    exact .inl rfl

/-- An instruction's memory is that of its store, if it has one. -/
@[simp] theorem Writes.apply_mem (w : Writes) (s : State) :
    (w.apply s).mem = w.store.elim s.mem fun c => (writeByte s c.1 c.2).mem := by
  simp only [writeByte_mem]
  rfl

@[simp] theorem Writes.apply_outPort (w : Writes) (s : State) :
    (w.apply s).outPort = w.port.elim s.outPort fun o => s.outPort.set o.1 o.2 := rfl

/-! ### The canonical form (20_memory.md R40, R42, R43) -/

theorem MemoryCanonical.congr {s t : State} (hs : MemoryCanonical s) (h : t.mem = s.mem) : MemoryCanonical t := by
  rw [MemoryCanonical, h]
  exact hs

theorem hostCall_keeps_memoryCanonical {c : HostCall} {s t : State} (h : hostCall c s = .ok t)
    (hs : MemoryCanonical s) : MemoryCanonical t := by
  rcases hostEffect_mem (hostCall_ok h).2 with hmem | ⟨a, v, rfl⟩ | ⟨o, bs, rfl⟩
  · exact hs.congr hmem
  · exact wf_writeByte hs a v
  · exact wf_writeBytes hs o bs

theorem Writes.apply_keeps_memoryCanonical (w : Writes) {s : State} (hs : MemoryCanonical s) :
    MemoryCanonical (w.apply s) := by
  rw [MemoryCanonical, Writes.apply_mem]
  cases w.store with
  | none => exact hs
  | some c => exact wf_writeByte hs c.1 c.2

theorem exec_keeps_memoryCanonical {i : Instr} {s t : State} (h : exec i s = .next t) (hs : MemoryCanonical s) :
    MemoryCanonical t := by
  obtain rfl := eq_of_exec_next h
  exact ((writes i s).apply_keeps_memoryCanonical hs).congr (complete_mem i _)

/-- Settles O54: only the host's calls and the handlers touch memory, and both keep the form. -/
theorem stepKeepsMemoryCanonical : Obligations.StepKeepsMemoryCanonical := by
  intro s t hs h
  exact step_keeps (I := MemoryCanonical)
    (hinputs := fun _ _ hs => hs)
    (hcall := fun _ _ _ => hostCall_keeps_memoryCanonical)
    (hpace := fun _ _ hs => hs)
    (hcharge := fun _ _ hs => hs)
    (hend := fun _ hs => hs)
    (hfetch := fun _ hs => hs)
    (hexec := fun _ _ _ => exec_keeps_memoryCanonical) h hs

/-! ### Which instructions write memory and ports (20_memory.md R42, R46; 46_io.md R216) -/

/-- The rows of the table with a store. -/
theorem writes_store_ne_none {i : Instr} {s : State} (h : (writes i s).store ≠ none) :
    (∃ n, i = .str n) ∨ i = .stxd ∨ i = .mark ∨ i = .sav ∨ ∃ k, i = inpInstr k := by
  cases i
  case str | stxd | mark | sav => simp
  case inp1 | inp2 | inp3 | inp4 | inp5 | inp6 | inp7 => decide
  all_goals exact absurd rfl h

/-- The rows of the table with an entry for an output port. -/
theorem writes_port_ne_none {i : Instr} {s : State} (h : (writes i s).port ≠ none) : ∃ k, i = outInstr k := by
  cases i
  case out1 | out2 | out3 | out4 | out5 | out6 | out7 => decide
  all_goals exact absurd rfl h

/-- Memory changes only by a store that the write-protect latch lets through. -/
theorem Writes.store_of_apply_mem_ne {w : Writes} {s : State} (h : (w.apply s).mem ≠ s.mem) :
    s.mp = false ∧ w.store ≠ none := by
  rw [Writes.apply_mem] at h
  cases hst : w.store with
  | none => exact absurd (by rw [hst]; rfl) h
  | some c =>
    refine ⟨Bool.eq_false_of_not_eq_true fun hmp => h ?_, Option.some_ne_none c⟩
    rw [hst, Option.elim_some, writeByte_mem, if_pos hmp]

/-- Settles O33: the write set of an instruction that changed memory has a store, of one that changed a port a port. -/
theorem onlyStoresWriteMemoryAndOnlyOutWritesPorts : Obligations.OnlyStoresWriteMemoryAndOnlyOutWritesPorts := by
  intro i s t ht
  obtain rfl := eq_of_exec_next ht
  constructor
  · rintro ⟨a, ha⟩
    have hmem : ((writes i s).apply s).mem ≠ s.mem := fun h => ha (readByte_congr h a)
    obtain ⟨hmp, hstore⟩ := Writes.store_of_apply_mem_ne hmem
    exact ⟨hmp, writes_store_ne_none hstore⟩
  · intro hport
    refine writes_port_ne_none (s := s) fun hnone => hport ?_
    rw [complete_outPort, Writes.apply_outPort, hnone, Option.elim_none]

/-! ### The bulk write (20_memory.md R43; 70_reset_and_hazards.md R268) -/

theorem asIndex_natCast {n k : Nat} (h : k < n) : asIndex n k = some ⟨k, h⟩ := by
  simp [asIndex, h]

theorem hostCall_setBytes {s : State} {offset : Nat} (bs : List Byte) (hr : s.running = false)
    (ho : offset < Config.memSize) : hostCall (.setBytes offset bs) s = .ok (writeBytes s offset bs) := by
  simp [hostCall, hr, hostEffect, asIndex_natCast ho]

/-- The bulk write as one record update. -/
theorem writeBytes_eq (s : State) (o : Nat) (bs : List Byte) :
    writeBytes s o bs = { s with mem := if s.mp then s.mem else Memory.writeAll s.mem o bs } := by
  unfold writeBytes
  split <;> rfl

/-- Settles O50: the call is `writeBytes`, which a read sees only at the addresses of its bytes. -/
theorem setBytesIsClippedToMemory : Obligations.SetBytesIsClippedToMemory := by
  intro s offset bs hr ho
  refine ⟨writeBytes s offset bs, hostCall_setBytes bs hr ho, by rw [writeBytes_eq], fun hmp => if_pos hmp, ?_⟩
  intro hmp a
  rw [readByte_writeBytes]
  constructor
  · intro v hle hv
    obtain ⟨hlt, -⟩ := List.getElem?_eq_some_iff.mp hv
    rw [if_pos ⟨hmp, hle, by omega⟩, List.getD_eq_getElem?_getD, hv, Option.getD_some]
  · intro houtside
    exact if_neg (by omega)

/-! ### A store and the fetch after it (20_memory.md R51, R53) -/

/-- What `STR` leaves: the store, and its cost. -/
theorem eq_of_exec_str {n : Nibble} {s t : State} (h : exec (.str n) s = .next t) :
    t = complete (.str n) (writeByte s (getReg s n) s.d) :=
  (Host.Outcome.next.inj h).symm

/-- Settles O43: `STR` moves neither `R[P]` nor P, so the fetch reads the address just stored. -/
theorem storedByteIsTheNextOpcode : Obligations.StoredByteIsTheNextOpcode := by
  intro s t n ht hmp hn
  have hopcode : readByte t (pc t) = s.d := by
    rw [eq_of_exec_str ht]
    simp [hn, hmp]
  refine ⟨readByte t (pc t + 1), readByte t (pc t + 2), ?_⟩
  rw [fetchInstr, hopcode]

end Sys2Proof.Machine
end

section
/-! PROOFS. Encoding (30_encoding.md): the decoder and the encoder undo each other. Two tables carry it, one in each
direction: the instruction that a whole encoding selects, by the instruction's form, and the bytes of the instruction
that an opcode byte selects, by the row of the opcode map. -/

namespace Sys2Proof

open Sys2Proof.Laws (opLength_reg)

/-! ### What the decoder answers -/

theorem opLength_le_three (op : Byte) : opLength op ≤ 3 := by
  unfold opLength
  repeat' split
  all_goals omega

/-- With the opcode's operand bytes there, the decoder answers what the opcode byte selects. -/
theorem decode_cons {op : Byte} {rest : List Byte} (h : opLength op ≤ rest.length + 1) :
    decode (op :: rest) =
      .ok (decodeOp op (rest.getD 0 0) (rest.getD 1 0), rest.drop (opLength op - 1)) :=
  if_neg (by omega)

/-- All that an answer of the decoder can be. -/
theorem of_decode_eq_ok {bytes rest : List Byte} {i : Instr} (h : decode bytes = .ok (i, rest)) :
    ∃ op tail, bytes = op :: tail ∧ opLength op ≤ tail.length + 1 ∧
      i = decodeOp op (tail.getD 0 0) (tail.getD 1 0) ∧ rest = tail.drop (opLength op - 1) := by
  cases bytes with
  | nil => cases h
  | cons op tail =>
    by_cases hlen : opLength op ≤ tail.length + 1
    · cases (decode_cons hlen).symm.trans h
      exact ⟨op, tail, rfl, hlen, rfl, rfl⟩
    · cases (if_pos (by omega)).symm.trans h

/-! ### From the instruction: a whole encoding selects it (R61 to R65) -/

theorem Instr.wellFormed_iff {i : Instr} : i.wellFormed = true ↔ i ≠ .ldn 0 := by
  cases i
  case ldn n => simp [Instr.wellFormed]
  all_goals exact iff_of_true rfl nofun

theorem decodeOp_ldn {n : Nibble} (hn : n ≠ 0) (b1 b2 : Byte) : decodeOp (joinNibbles 0 n) b1 b2 = .ldn n := by
  simpa [decodeOp] using hn

theorem encode_eq_cons (i : Instr) : ∃ operands, encode i = opcodeOf i :: operands := by
  cases i <;> exact ⟨_, rfl⟩

/-- The bytes of a well-formed instruction's encoding select it, whatever stands after them. -/
theorem decodeOp_of_encode_append {i : Instr} {op : Byte} {rest tail : List Byte} (hi : i.wellFormed = true)
    (h : encode i ++ rest = op :: tail) : decodeOp op (tail.getD 0 0) (tail.getD 1 0) = i := by
  cases i <;> cases h
  case ldn n =>
    have hn : n ≠ 0 := fun hn => Instr.wellFormed_iff.mp hi (congrArg Instr.ldn hn)
    exact decodeOp_ldn hn _ _
  case inc | dec | lda | str | glo | ghi | plo | phi | sep | sex =>
    simp [decodeOp] -- the low nibble of the opcode byte is the register number
  case lbr | lbq | lbz | lbdf | lbnq | lbnz | lbnf =>
    exact congrArg _ (joinBytes_hi_lo _)
  all_goals rfl

/-! ### From the opcode byte: the bytes of what it selects (R62, R65) -/

/-- The rows of the opcode map with operand bytes (3x, 7x, Cx, Fx): each opcode byte has its own instruction, so the low
nibble is split as well. A long branch holds its two bytes as one word. -/
theorem encode_decodeOp_operandRow {h : Nibble} (hh : h ∈ [(3 : Nibble), 7, 12, 15]) (n : Nibble) (b1 b2 : Byte) :
    encode (decodeOp (joinNibbles h n) b1 b2) =
      joinNibbles h n :: [b1, b2].take (opLength (joinNibbles h n) - 1) := by
  simp only [List.mem_cons, List.not_mem_nil, or_false] at hh
  obtain ⟨k⟩ := n
  rcases hh with rfl | rfl | rfl | rfl
  case inr.inr.inl =>
    have htarget : [b1, b2] = [hiByte (joinBytes b1 b2), loByte (joinBytes b1 b2)] := by simp
    rw [htarget]
    fin_cases k <;> rfl
  all_goals fin_cases k <;> rfl

/-- The other rows: one byte. The low nibble is a register number, but in row 6x, and at 00, which is IDL (R67). -/
theorem encode_decodeOp_registerRow {h : Nibble} (hh : h ∉ [(3 : Nibble), 7, 12, 15]) (n : Nibble) (b1 b2 : Byte) :
    encode (decodeOp (joinNibbles h n) b1 b2) = [joinNibbles h n] := by
  have hrow : h = 0 ∨ h = 6 ∨ h ∈ [(1 : Nibble), 2, 4, 5, 8, 9, 10, 11, 13, 14] := by
    revert h
    decide
  obtain rfl | rfl | hreg := hrow
  · by_cases hn : n = 0
    · subst hn
      rfl
    · exact congrArg encode (decodeOp_ldn hn b1 b2)
  · obtain ⟨k⟩ := n
    fin_cases k <;> rfl
  · simp only [List.mem_cons, List.not_mem_nil, or_false] at hreg
    rcases hreg with rfl | rfl | rfl | rfl | rfl | rfl | rfl | rfl | rfl | rfl
    all_goals simp [decodeOp, encode]

/-- What an opcode byte and two bytes after it select has as its encoding the opcode byte and those of the two that
belong to it. -/
theorem encode_decodeOp (op b1 b2 : Byte) :
    encode (decodeOp op b1 b2) = op :: [b1, b2].take (opLength op - 1) := by
  rw [← joinNibbles_hi_lo op]
  by_cases hh : hiNibble op ∈ [(3 : Nibble), 7, 12, 15]
  · exact encode_decodeOp_operandRow hh _ b1 b2
  · rw [encode_decodeOp_registerRow hh, opLength_reg _ hh]
    rfl

/-- The ill-formed `ldn 0` would have the byte 00, which selects IDL (R67). -/
theorem decodeOp_wellFormed (op b1 b2 : Byte) : (decodeOp op b1 b2).wellFormed = true := by
  refine Instr.wellFormed_iff.mpr fun hldn => ?_
  have hbytes := encode_decodeOp op b1 b2
  rw [hldn] at hbytes
  obtain ⟨rfl, -⟩ := List.cons.inj hbytes
  cases hldn

theorem take_getD_eq_take {k : Nat} {tail : List Byte} (hk : k ≤ 2) (h : k ≤ tail.length) :
    [tail.getD 0 0, tail.getD 1 0].take k = tail.take k := by
  match k, tail with
  | 0, _ => rfl
  | 1, _ :: _ => rfl
  | 2, _ :: _ :: _ => rfl

/-- The encoding of a well-formed instruction holds the bytes that its opcode byte asks for (R62). -/
theorem opLength_le_of_encode_append {i : Instr} {op : Byte} {rest tail : List Byte} (hi : i.wellFormed = true)
    (h : encode i ++ rest = op :: tail) : opLength op ≤ tail.length + 1 := by
  have hmax := opLength_le_three op
  have hencode := encode_decodeOp op (tail.getD 0 0) (tail.getD 1 0)
  rw [decodeOp_of_encode_append hi h] at hencode
  have hlen := congrArg List.length h
  simp only [hencode, List.length_append, List.length_cons, List.length_take, List.length_nil] at hlen
  omega

theorem decode_encode_append {i : Instr} (hi : i.wellFormed = true) (rest : List Byte) :
    ∃ left, decode (encode i ++ rest) = .ok (i, left) := by
  obtain ⟨operands, hcons⟩ := encode_eq_cons i
  have hbytes : encode i ++ rest = opcodeOf i :: (operands ++ rest) := by rw [hcons, List.cons_append]
  rw [hbytes, decode_cons (opLength_le_of_encode_append hi hbytes), decodeOp_of_encode_append hi hbytes]
  exact ⟨_, rfl⟩

/-! ### The obligations -/

/-- Settles O56: the opcode byte, the operand bytes taken and the bytes left over make up the list again. -/
theorem encodeOfDecodeIsTheBytes : Obligations.EncodeOfDecodeIsTheBytes := by
  intro bytes
  constructor
  · intro i rest h
    obtain ⟨op, tail, rfl, hlen, rfl, rfl⟩ := of_decode_eq_ok h
    have hmax := opLength_le_three op
    refine ⟨decodeOp_wellFormed op _ _, ?_⟩
    rw [encode_decodeOp, take_getD_eq_take (by omega) (by omega), List.cons_append, List.take_append_drop]
  · intro hthree
    match bytes with
    | op :: tail => exact ⟨_, _, decode_cons ((opLength_le_three op).trans hthree)⟩

/-- Settles O55: the decoder answers the instruction, and by the other direction (O56) its encoding and what is left
over make up the list, so what is left over is what followed the encoding. -/
theorem decodeOfEncodeIsTheInstruction : Obligations.DecodeOfEncodeIsTheInstruction := by
  intro i rest hi
  obtain ⟨left, hleft⟩ := decode_encode_append hi rest
  obtain ⟨-, hbytes⟩ := (encodeOfDecodeIsTheBytes _).1 i left hleft
  rw [hleft, List.append_cancel_left hbytes]

/-- Settles O57, by running the decoder on the twelve words. -/
theorem someWordsDecodeAsTheMapSays : Obligations.SomeWordsDecodeAsTheMapSays := by
  unfold Obligations.SomeWordsDecodeAsTheMapSays
  decide

end Sys2Proof
end

section
/-! PROOFS. The execution loop (40_execution_loop.md): a turn of the CPU forwards, one lemma per case of `cpuTurn`; what
the calls `stop()` and `run()` make of a boundary; and the cost of an instruction by the row of its opcode. -/

namespace Sys2Proof.Machine

/-! ### The cost by the opcode's row (R83, R84) -/

/-- `cost(op)` as a function of the opcode byte alone (R84; R83 for byte 68). -/
def costOfOpcode (op : Byte) : Nat := if op = 0x68 then 0 else if op.toNat / 16 = 0xC then 3 else 2

/-- A row with neither 68 nor the sixteen opcodes of 3 cycles costs 2, whatever the low nibble is. -/
theorem costOfOpcode_row {h : Nibble} (hh : h ∉ [(6 : Nibble), 0xC]) (n : Nibble) :
    costOfOpcode (joinNibbles h n) = 2 := by
  revert h n
  decide

/-- The instruction's cost is that of its opcode byte. A register number stands in the low nibble and decides nothing;
every other instruction has one opcode byte. -/
theorem cost_eq_costOfOpcode (i : Instr) : cost i = costOfOpcode (opcodeOf i) := by
  cases i
  case ldn n | inc n | dec n | lda n | str n | glo n | ghi n | plo n | phi n | sep n | sex n =>
    exact (costOfOpcode_row (by decide) n).symm
  all_goals
    simp only [opcodeOf, encode, List.headD_cons]
    rfl

/-- Settles O30: the handler adds `cost`, which is fixed by the opcode byte. -/
theorem costIsFixedByTheOpcodeRow : Obligations.CostIsFixedByTheOpcodeRow := by
  intro i s t ht
  rw [exec_cycles ht, cost_eq_costOfOpcode, costOfOpcode]

theorem two_le_costOfOpcode {op : Byte} (h : op ≠ 0x68) : 2 ≤ costOfOpcode op := by
  rw [costOfOpcode, if_neg h]
  split <;> omega

/-! ### The fetched instruction -/

/-- The decoder's answer has the opcode byte that was fetched. -/
theorem opcodeOf_fetchInstr (s : State) : opcodeOf (fetchInstr s) = readByte s (getReg s s.p) := by
  rw [fetchInstr, opcodeOf, encode_decodeOp]
  rfl

/-- The instruction that the bytes at `R[P]` decode to is the one that is fetched. -/
theorem eq_fetchInstr_of_decode {s : State} {i : Instr} {rest : List Byte}
    (h : decode [readByte s (getReg s s.p), readByte s (getReg s s.p + 1), readByte s (getReg s s.p + 2)] =
      .ok (i, rest)) : i = fetchInstr s := by
  obtain ⟨left, hleft⟩ := decode_fetched s
  cases h.symm.trans hleft
  rfl

/-! ### What an instruction keeps of the run -/

@[simp] theorem Writes.apply_stopReq (w : Writes) (s : State) : (w.apply s).stopReq = s.stopReq := rfl

@[simp] theorem Writes.apply_pace (w : Writes) (s : State) : (w.apply s).pace = s.pace := rfl

@[simp] theorem Writes.apply_running (w : Writes) (s : State) :
    (w.apply s).running = w.fault.elim s.running fun _ => false := rfl

/-- The one row of the table that takes the decode fault. -/
theorem writes_fault_eq_none {i : Instr} (hi : i ≠ .undefined) (s : State) : (writes i s).fault = none := by
  cases i
  case undefined => exact absurd rfl hi
  all_goals rfl

theorem exec_total (i : Instr) (s : State) : ∃ t, exec i s = .next t := ⟨_, exec_eq i s⟩

theorem runInstr_total (s : State) : ∃ t, runInstr s = .next t := exec_total _ _

/-- Only the decode fault ends the run from inside an instruction (R83). -/
theorem exec_running {i : Instr} {s t : State} (h : exec i s = .next t) (hi : i ≠ .undefined) :
    t.running = s.running := by
  rw [eq_of_exec_next h, complete_running, Writes.apply_running, writes_fault_eq_none hi, Option.elim_none]

theorem runInstr_stopReq {s t : State} (h : runInstr s = .next t) : t.stopReq = s.stopReq := by
  simp [eq_of_exec_next h]

theorem runInstr_pace {s t : State} (h : runInstr s = .next t) : t.pace = s.pace := by
  simp [eq_of_exec_next h]

/-! ### A turn of the CPU, forwards -/

theorem cpuTurn_stopped (known : Bool) {s : State} (hr : s.running = false) : cpuTurn known s = .next s := by
  simp [cpuTurn, hr]

theorem cpuTurn_singleStep_idle (known : Bool) {s : State} (hr : s.running = true) (hs : s.stepRun = true)
    (hi : s.idle = true) : cpuTurn known s = .next (endRun s) := by
  simp [cpuTurn, hr, hs, singleStep, hi]

theorem cpuTurn_singleStep (known : Bool) {s t : State} (hr : s.running = true) (hs : s.stepRun = true)
    (hi : s.idle = false) (ht : runInstr s = .next t) : cpuTurn known s = .next (endRun t) := by
  simp [cpuTurn, hr, hs, singleStep, hi, ht]

theorem cpuTurn_waits {known : Bool} {s : State} (hr : s.running = true) (hs : s.stepRun = false)
    (hw : paceWaits known s = true) : cpuTurn known s = .next s := by
  simp [cpuTurn, hr, hs, hw]

theorem cpuTurn_ends {known : Bool} {s : State} (hr : s.running = true) (hs : s.stepRun = false)
    (hw : paceWaits known s = false) (hl : loopEnds s = true) :
    cpuTurn known s = .next (endRun (paceCheckpoint known s)) := by
  simp [cpuTurn, hr, hs, hw, loopTurn, hl]

/-- A turn always answers a next state. -/
theorem cpuTurn_total (known : Bool) (s : State) : ∃ t, cpuTurn known s = .next t := by
  cases hr : s.running
  case false => exact ⟨_, cpuTurn_stopped known hr⟩
  cases hs : s.stepRun
  case true =>
    cases hi : s.idle
    case true => exact ⟨_, cpuTurn_singleStep_idle known hr hs hi⟩
    obtain ⟨t, ht⟩ := runInstr_total s
    exact ⟨_, cpuTurn_singleStep known hr hs hi ht⟩
  cases hw : paceWaits known s
  case true => exact ⟨_, cpuTurn_waits hr hs hw⟩
  cases hl : loopEnds s
  case true => exact ⟨_, cpuTurn_ends hr hs hw hl⟩
  obtain ⟨t, ht⟩ := exec_total (fetchInstr s) (advancePc (paceCheckpoint known s) 1)
  exact ⟨_, cpuTurn_runs hr hs hw hl ht⟩

/-- Settles O29: once the boundary's calls are answered, only the CPU's turn is left. -/
theorem stepAnswersUnlessAHostCallIsRefused : Obligations.StepAnswersUnlessAHostCallIsRefused := by
  intro s
  constructor
  · intro hin
    rw [step_no_inputs hin]
    exact cpuTurn_total false s
  · intro calls rest u hin hu
    rw [step_inputs hin hu]
    exact cpuTurn_total true u

/-! ### The end of the loop (R85, R87, R88) -/

theorem loopEnds_of_stopReq {s : State} (h : s.stopReq = true) : loopEnds s = true := by
  simp [loopEnds, h]

theorem paceWaits_of_stopReq (known : Bool) {s : State} (h : s.stopReq = true) : paceWaits known s = false := by
  simp [paceWaits, h]

theorem capReached_iff {s : State} {cap : Nat} (h : s.cycleCap = some cap) : capReached s = true ↔ cap < s.cycles := by
  simp [capReached, h]

/-- A turn that ends the loop changes the scheduler and the running flag alone. -/
theorem sameArchitecture_endRun_paceCheckpoint (known : Bool) (s : State) :
    SameArchitecture { s with running := false } (endRun (paceCheckpoint known s)) := rfl

theorem hostCalls_stop (s : State) : hostCalls [.stop] s = .ok { s with stopReq := true } := by
  simp [hostCalls, hostCall, allowedDuringRun, hostEffect]

/-- Settles O38: a stop request, there already or made by the call of the boundary, cuts short a wait and ends the
loop. -/
theorem stopIsObservedBeforeTheNextInstruction : Obligations.StopIsObservedBeforeTheNextInstruction := by
  intro s hr hs
  constructor
  · intro hstop hin
    refine ⟨_, ?_, sameArchitecture_endRun_paceCheckpoint false s⟩
    rw [step_no_inputs hin]
    exact cpuTurn_ends hr hs (paceWaits_of_stopReq false hstop) (loopEnds_of_stopReq hstop)
  · intro later hin
    refine ⟨_, ?_, sameArchitecture_endRun_paceCheckpoint true { s with stopReq := true, inputs := later }⟩
    rw [step_inputs hin (hostCalls_stop _)]
    exact cpuTurn_ends hr hs (paceWaits_of_stopReq true rfl) (loopEnds_of_stopReq rfl)

/-- Settles O39: above the cap the loop ends; at the cap it runs the fetched instruction, which is not byte 68, so that
the run goes on and at least 2 cycles are added. -/
theorem cycleCapEndsTheRunOnceExceeded : Obligations.CycleCapEndsTheRunOnceExceeded := by
  intro s cap hin hr hs hi hstop hcap
  rw [step_no_inputs hin]
  constructor
  · intro hlt
    have hends : loopEnds s = true := by simp [loopEnds, (capReached_iff hcap).mpr hlt]
    exact ⟨_, cpuTurn_ends hr hs (paceWaits_free s) hends, sameArchitecture_endRun_paceCheckpoint false s⟩
  · intro hle hop
    have hcapReached : capReached s = false :=
      Bool.eq_false_of_not_eq_true fun h => Nat.not_lt.mpr hle ((capReached_iff hcap).mp h)
    have hgoesOn : loopEnds s = false := by simp [loopEnds, hi, hstop, hcapReached]
    obtain ⟨t, ht⟩ := exec_total (fetchInstr s) (advancePc (paceCheckpoint false s) 1)
    rw [← opcodeOf_fetchInstr] at hop
    have hdefined : fetchInstr s ≠ .undefined := fun h => hop (congrArg opcodeOf h)
    refine ⟨_, cpuTurn_runs hr hs (paceWaits_free s) hgoesOn ht, ?_, ?_⟩
    · rw [afterInstr_running, exec_running ht hdefined]
      exact hr
    · have hcost := two_le_costOfOpcode hop
      rw [← cost_eq_costOfOpcode] at hcost
      rw [afterInstr_cycles, exec_cycles ht]
      exact Nat.add_le_add_left hcost s.cycles

/-! ### The entry of run() (R85, R86, R90) -/

theorem endRun_of_not_running {s : State} (h : s.running = false) : endRun s = s := by
  rw [endRun, ← h]

/-- The entry of a single-step run touches no scheduler variable (R86). -/
theorem enterRun_of_stepMode {s : State} (h : s.stepMode = true) :
    enterRun s = { s with stopReq := false, running := true, stepRun := true } := by
  simp [enterRun, h]

theorem enterRun_of_not_stepMode {s : State} (h : s.stepMode = false) :
    enterRun s = paceInit { s with stopReq := false, running := true, stepRun := false } := by
  simp [enterRun, h]

/-- After the entry of a run neither a wait nor a checkpoint stands before the first instruction. -/
theorem checkpointDue_enterRun {s : State} (h : s.stepMode = false) : checkpointDue (enterRun s) = false := by
  rw [enterRun_of_not_stepMode h]
  rfl

theorem paceWaits_of_not_due (known : Bool) {s : State} (h : checkpointDue s = false) : paceWaits known s = false := by
  simp [paceWaits, h]

theorem paceCheckpoint_of_not_due (known : Bool) {s : State} (h : checkpointDue s = false) :
    paceCheckpoint known s = s := by
  simp [paceCheckpoint, h]

theorem loopEnds_enterRun (s : State) : loopEnds (enterRun s) = (s.idle || capReached s) := by
  simp [loopEnds, capReached]

theorem fetchInstr_enterRun (s : State) : fetchInstr (enterRun s) = fetchInstr s :=
  fetchInstr_congr (enterRun_regs s) (enterRun_p s) (enterRun_mem s)

theorem hostCalls_run {s : State} (hr : s.running = false) : hostCalls [.run] s = .ok (enterRun s) := by
  simp [hostCalls, hostCall, hr, hostEffect]

section
variable {s : State} {later : List (List HostCall)} (hin : s.inputs = [.run] :: later) (hr : s.running = false)
include hin hr

/-- A boundary whose one call is `run()`: the CPU's turn comes after the entry of the run. -/
theorem step_run : step s = cpuTurn true (enterRun { s with inputs := later }) :=
  step_inputs hin (hostCalls_run hr)

/-- The first turn of a run that is not to end at once executes the instruction at `R[P]`. -/
theorem step_run_runs {t : State} (hmode : s.stepMode = false) (hi : s.idle = false) (hcap : capReached s = false)
    (ht : exec (fetchInstr s) (advancePc (enterRun { s with inputs := later }) 1) = .next t) :
    step s = .next (afterInstr (fetchInstr s) t) := by
  have hdue := checkpointDue_enterRun (s := { s with inputs := later }) hmode
  have hfetch : fetchInstr (enterRun { s with inputs := later }) = fetchInstr s := fetchInstr_enterRun _
  have hgoesOn : loopEnds (enterRun { s with inputs := later }) = false := by
    rw [loopEnds_enterRun]
    exact Bool.or_eq_false_iff.mpr ⟨hi, hcap⟩
  rw [step_run hin hr, ← hfetch]
  refine cpuTurn_runs (by simp) (by simp [hmode]) (paceWaits_of_not_due true hdue) hgoesOn ?_
  rw [paceCheckpoint_of_not_due true hdue, hfetch]
  exact ht

/-- The one turn of a single-step run executes the instruction at `R[P]`, whatever the cap is. -/
theorem step_run_singleStep {t : State} (hmode : s.stepMode = true) (hi : s.idle = false)
    (ht : runInstr (enterRun { s with inputs := later }) = .next t) : step s = .next (endRun t) := by
  rw [step_run hin hr]
  exact cpuTurn_singleStep true (by simp) (by simp [hmode]) (by simp [hi]) ht

/-- A single-step run of an idle machine is over at once. -/
theorem step_run_singleStep_idle (hmode : s.stepMode = true) (hi : s.idle = true) :
    step s = .next (endRun (enterRun { s with inputs := later })) := by
  rw [step_run hin hr]
  exact cpuTurn_singleStep_idle true (by simp) (by simp [hmode]) (by simp [hi])

/-- A run of an idle machine ends before its first instruction. -/
theorem step_run_idle (hmode : s.stepMode = false) (hi : s.idle = true) :
    step s = .next (endRun (enterRun { s with inputs := later })) := by
  have hdue := checkpointDue_enterRun (s := { s with inputs := later }) hmode
  have hends : loopEnds (enterRun { s with inputs := later }) = true := by simp [loopEnds_enterRun, hi]
  rw [step_run hin hr, cpuTurn_ends (by simp) (by simp [hmode]) (paceWaits_of_not_due true hdue) hends,
    paceCheckpoint_of_not_due true hdue]

end

/-- Settles O40: the entry of the run writes the three flags named, and the turn is one instruction or none. -/
theorem singleStepRunExecutesOneInstruction : Obligations.SingleStepRunExecutesOneInstruction := by
  intro s later hin hr hmode
  have henter := enterRun_of_stepMode (s := { s with inputs := later }) hmode
  constructor
  · intro hi
    obtain ⟨u, hu⟩ := runInstr_total { s with stopReq := false, running := true, stepRun := true, inputs := later }
    have hstep : step s = .next (endRun u) := step_run_singleStep hin hr hmode hi (henter ▸ hu)
    have hstop := runInstr_stopReq hu
    have hpace := runInstr_pace hu
    exact ⟨endRun u, u, hu, hstep, rfl, hstop, hpace⟩
  · intro hi
    rw [step_run_singleStep_idle hin hr hmode hi, henter]
    exact congrArg _ (endRun_of_not_running (s := { s with stopReq := false, stepRun := true, inputs := later }) hr)

/-! ### The run-state (R90) -/

theorem runState_eq_stopped_iff {s : State} : runState s = .stopped ↔ s.running = false ∧ s.idle = false := by
  cases hr : s.running <;> cases hi : s.idle <;> simp [runState, hr, hi]

theorem runState_eq_idle_iff {s : State} : runState s = .idle ↔ s.running = false ∧ s.idle = true := by
  cases hr : s.running <;> cases hi : s.idle <;> simp [runState, hr, hi]

/-- Settles O41: from Stopped the first turn is the NOP at `R[P]`; from Idle the loop ends before any instruction. -/
theorem runResumesFromStoppedButNotFromIdle : Obligations.RunResumesFromStoppedButNotFromIdle := by
  intro s later hin hr hmode
  have henter := enterRun_of_not_stepMode (s := { s with inputs := later }) hmode
  constructor
  · intro hstopped hcap hop
    obtain ⟨-, hi⟩ := runState_eq_stopped_iff.mp hstopped
    have hnop : fetchInstr s = .nop := by
      rw [fetchInstr, pc_eq, hop]
      rfl
    have hstep := step_run_runs hin hr hmode hi hcap (exec_eq _ _)
    rw [hnop, henter] at hstep -- NOP's write set is empty: the fetch's `R[P] + 1`, the 3 cycles and their charge remain
    exact ⟨_, hstep, rfl, fun m => getReg_setReg s s.p m (getReg s s.p + 1), rfl⟩
  · intro hidle
    obtain ⟨-, hi⟩ := runState_eq_idle_iff.mp hidle
    have hended : endRun (enterRun { s with inputs := later }) =
        paceInit { s with stopReq := false, stepRun := false, inputs := later } := by
      rw [henter]
      exact endRun_of_not_running (s := paceInit { s with stopReq := false, stepRun := false, inputs := later }) hr
    exact ⟨_, (step_run_idle hin hr hmode hi).trans (congrArg _ hended), runState_eq_idle_iff.mpr ⟨hr, hi⟩, rfl⟩

/-! ### The decoded instruction runs (R80, R85, R86) -/

/-- Settles O37: what the bytes decode to is the fetched instruction, which each of the four turns executes. -/
theorem stepRunsTheDecodedInstruction : Obligations.StepRunsTheDecodedInstruction := by
  intro s i rest
  constructor
  · intro hdecode hi
    obtain rfl := eq_fetchInstr_of_decode hdecode
    refine ⟨?_, ?_, ?_⟩
    · intro hin hr hs hstop hcap
      have hgoesOn : loopEnds s = false := by simp [loopEnds, hi, hstop, hcap]
      obtain ⟨t, ht⟩ := exec_total (fetchInstr s) (advancePc (paceCheckpoint false s) 1)
      exact ⟨t, ht, (step_no_inputs hin).trans (cpuTurn_runs hr hs (paceWaits_free s) hgoesOn ht)⟩
    · intro later hin hr hmode hcap
      obtain ⟨t, ht⟩ := exec_total (fetchInstr s) (advancePc (enterRun { s with inputs := later }) 1)
      exact ⟨t, ht, step_run_runs hin hr hmode hi hcap ht⟩
    · intro later hin hr hmode
      obtain ⟨t, ht⟩ := exec_total (fetchInstr s) (advancePc (enterRun { s with inputs := later }) 1)
      refine ⟨t, ht, step_run_singleStep hin hr hmode hi ?_⟩
      rw [runInstr, fetchInstr_enterRun]
      exact ht
  · intro calls later u hin hu hdecode hr hs hgoesOn hw
    obtain rfl := eq_fetchInstr_of_decode hdecode
    obtain ⟨t, ht⟩ := exec_total (fetchInstr u) (advancePc (paceCheckpoint true u) 1)
    exact ⟨t, ht, (step_inputs hin hu).trans (cpuTurn_runs hr hs hw hgoesOn ht)⟩

end Sys2Proof.Machine
end

section
/-! PROOFS. The pacing scheduler (41_pacing_scheduler.md): what a checkpoint does with the budget and the clock; the
account of a run, in which every cycle is charged against the milliseconds passed; and that no host call and no turn
that is not a wait depends on the scheduler or the clock. -/

namespace Sys2Proof.Machine

/-! ### The checkpoint (R102, R106) -/

theorem checkpointDue_iff {s : State} : checkpointDue s = true ↔ s.pace.budget < s.pace.count :=
  decide_eq_true_iff

theorem checkpointDue_eq_false_iff {s : State} : checkpointDue s = false ↔ s.pace.count ≤ s.pace.budget :=
  decide_eq_false_iff_not.trans Nat.not_lt

theorem paceCheckpoint_of_due (known : Bool) {s : State} (h : checkpointDue s = true) :
    paceCheckpoint known s =
      { s with
        pace := ⟨s.pace.count - s.pace.budget, 224 * (clockSample known s - s.pace.lastMs), clockSample known s⟩
        clockMs := clockSample known s
        clockReads := if known then s.clockReads else s.clockReads + 1 } := by
  cases known <;> simp [paceCheckpoint, h, Config.cyclesPerMs]

/-- With a known clock a due checkpoint waits exactly while the clock stands and no stop is requested. -/
theorem paceWaits_known_iff {s : State} (h : checkpointDue s = true) :
    paceWaits true s = true ↔ s.clockMs = s.pace.lastMs ∧ s.stopReq = false := by
  simp [paceWaits, h]

/-- Settles O58: the three clauses are the three answers of `checkpointDue` and `paceWaits`. -/
theorem checkpointRecomputesTheBudget : Obligations.CheckpointRecomputesTheBudget := by
  intro s
  refine ⟨fun hle => ?_, fun hlt hends => ?_, fun hlt hclock hstop hr hs => ?_⟩
  · have hdue := checkpointDue_eq_false_iff.mpr hle
    exact ⟨paceCheckpoint_of_not_due true hdue, paceWaits_of_not_due true hdue⟩
  · have hdue := checkpointDue_iff.mpr hlt
    refine ⟨Bool.eq_false_of_not_eq_true fun hw => ?_, paceCheckpoint_of_due true hdue⟩
    obtain ⟨hclock, hstop⟩ := (paceWaits_known_iff hdue).mp hw
    exact hends.elim (· hclock) (by simp [hstop])
  · exact cpuTurn_waits hr hs ((paceWaits_known_iff (checkpointDue_iff.mpr hlt)).mpr ⟨hclock, hstop⟩)

/-! ### The clock of a checkpoint (R101, R106) -/

theorem clockMs_le_clockSample (known : Bool) (s : State) : s.clockMs ≤ clockSample known s := by
  unfold clockSample
  split
  · exact le_refl _
  · split
    · exact Nat.le_add_right _ _
    · exact le_max_of_le_left (Nat.le_add_right _ _)

/-- A checkpoint that is passed without a stop request finds the clock past the last one. -/
theorem lastMs_lt_clockSample {known : Bool} {s : State} (hle : s.pace.lastMs ≤ s.clockMs)
    (hdue : checkpointDue s = true) (hw : paceWaits known s = false) (hstop : s.stopReq = false) :
    s.pace.lastMs < clockSample known s := by
  cases known
  case false =>
    simp only [clockSample, Bool.false_eq_true, if_false, hstop]
    exact lt_max_of_lt_right (Nat.lt_succ_self _)
  case true =>
    have hmoved : s.clockMs ≠ s.pace.lastMs := fun hclock =>
      absurd ((paceWaits_known_iff hdue).mpr ⟨hclock, hstop⟩) (by simp [hw])
    exact lt_of_le_of_ne hle hmoved.symm

/-! ### What a turn and the host's calls leave unchanged -/

@[simp] theorem Writes.apply_stepRun (w : Writes) (s : State) : (w.apply s).stepRun = s.stepRun := rfl

@[simp] theorem Writes.apply_clockMs (w : Writes) (s : State) : (w.apply s).clockMs = s.clockMs := rfl

@[simp] theorem Writes.apply_inputs (w : Writes) (s : State) : (w.apply s).inputs = s.inputs := rfl

theorem runInstr_stepRun {s t : State} (h : runInstr s = .next t) : t.stepRun = s.stepRun := by
  simp [eq_of_exec_next h]

theorem runInstr_clockMs {s t : State} (h : runInstr s = .next t) : t.clockMs = s.clockMs := by
  simp [eq_of_exec_next h]

theorem runInstr_inputs {s t : State} (h : runInstr s = .next t) : t.inputs = s.inputs := by
  simp [eq_of_exec_next h]

theorem cpuTurn_inputs {known : Bool} {s t : State} (h : cpuTurn known s = .next t) : t.inputs = s.inputs := by
  rcases cpuTurn_cases h with ⟨-, rfl⟩ | ⟨-, -, -, rfl⟩ | ⟨-, -, -, u, hu, rfl⟩ | ⟨-, -, -, rfl⟩ |
    ⟨-, -, -, -, rfl⟩ | ⟨-, -, -, -, u, hu, rfl⟩
  · rfl
  · rfl
  · simpa using runInstr_inputs hu
  · rfl
  · rfl
  · simpa using runInstr_inputs hu

/-- No host call reaches the calls still to come, and only `run()` starts a run (60_exceptions.md R252). -/
theorem hostEffect_inputs_running {c : HostCall} {s t : State} (h : hostEffect c s = some t) :
    t.inputs = s.inputs ∧ (c ≠ .run → t.running = s.running) := by
  cases c
  case setByte | setBytes | setExternalFlag | setInPort | setOutPort =>
    obtain ⟨k, -, rfl⟩ := Option.map_eq_some_iff.mp h
    simp
  all_goals
    cases h
    simp [resetCpu_eq]

theorem hostCalls_inputs {cs : List HostCall} {s t : State} (h : hostCalls cs s = .ok t) : t.inputs = s.inputs :=
  hostCalls_induction (I := fun u => u.inputs = s.inputs)
    (fun _ _ _ hc hu => (hostEffect_inputs_running (hostCall_ok hc).2).1.trans hu) h rfl

/-- Without a call of `run()` a stopped machine stays stopped. -/
theorem hostCalls_not_running {cs : List HostCall} {s t : State} (h : hostCalls cs s = .ok t) (hrun : .run ∉ cs)
    (hr : s.running = false) : t.running = false := by
  induction cs generalizing s with
  | nil =>
    cases h
    exact hr
  | cons c cs ih =>
    unfold hostCalls at h
    split at h
    · next u hu =>
      have hkeeps := (hostEffect_inputs_running (hostCall_ok hu).2).2 (List.ne_of_not_mem_cons hrun).symm
      exact ih h (List.not_mem_of_not_mem_cons hrun) (hkeeps.trans hr)
    · cases h

/-! ### Emulated time and the wall clock (R105) -/

/-- The account of a run entered at `ms0` with the cycle counter at `cycles0`: every budget up to the last checkpoint is
either spent or the current one, and the count is past the current one by at most one instruction. -/
structure OnPace (ms0 cycles0 : Nat) (s : State) : Prop where
  entry_le : ms0 ≤ s.pace.lastMs
  last_le : s.pace.lastMs ≤ s.clockMs
  account : s.cycles + s.pace.budget + 224 * ms0 = cycles0 + s.pace.count + 224 * s.pace.lastMs
  overshoot : s.pace.count ≤ s.pace.budget + 3

section
variable {ms0 cycles0 : Nat} {s t : State}

theorem OnPace.cycles_le (h : OnPace ms0 cycles0 s) :
    ms0 ≤ s.clockMs ∧ s.cycles ≤ cycles0 + 224 * (s.clockMs - ms0) + 3 := by
  obtain ⟨hentry, hlast, haccount, hover⟩ := h
  omega

/-- A checkpoint that is passed while the loop goes on leaves none due: at most 3 cycles of overshoot stand against a
budget of at least 1 ms. -/
theorem OnPace.of_paceCheckpoint {known : Bool} (h : OnPace ms0 cycles0 s) (hw : paceWaits known s = false)
    (hstop : s.stopReq = false) :
    OnPace ms0 cycles0 (paceCheckpoint known s) ∧ checkpointDue (paceCheckpoint known s) = false := by
  obtain ⟨hentry, hlast, haccount, hover⟩ := h
  cases hdue : checkpointDue s
  case false =>
    rw [paceCheckpoint_of_not_due known hdue]
    exact ⟨⟨hentry, hlast, haccount, hover⟩, hdue⟩
  case true =>
    have hmoved := lastMs_lt_clockSample hlast hdue hw hstop
    have hspent := checkpointDue_iff.mp hdue
    rw [paceCheckpoint_of_due known hdue, checkpointDue_eq_false_iff]
    refine ⟨⟨?_, ?_, ?_, ?_⟩, ?_⟩ <;> dsimp only <;> omega

/-- An instruction begun with no checkpoint due is the overshoot. -/
theorem OnPace.of_runInstr (h : OnPace ms0 cycles0 s) (hdue : checkpointDue s = false) (hrun : runInstr s = .next t) :
    OnPace ms0 cycles0 (paceCharge (cost (fetchInstr s)) t) := by
  obtain ⟨hentry, hlast, haccount, hover⟩ := h
  have hspare := checkpointDue_eq_false_iff.mp hdue
  have hcost := cost_le_three (fetchInstr s)
  have hcycles : t.cycles = s.cycles + cost (fetchInstr s) := by simpa using exec_cycles hrun
  have hpace := runInstr_pace hrun
  have hclock := runInstr_clockMs hrun
  constructor <;> simp only [paceCharge_pace, paceCharge_clockMs, paceCharge_cycles, hpace, hclock, hcycles] <;> omega

theorem OnPace.of_clock_le (h : OnPace ms0 cycles0 s) (hpace : t.pace = s.pace) (hcycles : t.cycles = s.cycles)
    (hclock : s.clockMs ≤ t.clockMs) : OnPace ms0 cycles0 t := by
  obtain ⟨hentry, hlast, haccount, hover⟩ := h
  rw [← hpace] at hentry hlast haccount hover
  exact ⟨hentry, hlast.trans hclock, hcycles ▸ haccount, hover⟩

/-- The invariant of a run: while it lasts, it is not single-step and on pace. -/
def RunOnPace (ms0 cycles0 : Nat) (s : State) : Prop :=
  s.running = true → s.stepRun = false ∧ OnPace ms0 cycles0 s

/-- A turn is a wait, ends the run, or executes an instruction with no checkpoint due. -/
theorem RunOnPace.of_cpuTurn {known : Bool} (h : RunOnPace ms0 cycles0 s) (ht : cpuTurn known s = .next t) :
    RunOnPace ms0 cycles0 t := by
  rcases cpuTurn_cases ht with ⟨-, rfl⟩ | ⟨-, -, -, rfl⟩ | ⟨-, -, -, u, -, rfl⟩ | ⟨-, -, -, rfl⟩ |
    ⟨-, -, -, -, rfl⟩ | ⟨hr, hs, hw, hgoesOn, u, hu, rfl⟩
  · exact h
  · exact fun hr => nomatch hr
  · exact fun hr => nomatch hr
  · exact h
  · exact fun hr => nomatch hr
  · intro hru
    rw [afterInstr_running] at hru
    have hstop : s.stopReq = false := Bool.eq_false_of_not_eq_true fun hstop =>
      absurd (loopEnds_of_stopReq hstop) (by simpa using hgoesOn)
    obtain ⟨hpace, hdue⟩ := (h hr).2.of_paceCheckpoint hw hstop
    refine ⟨?_, ?_⟩
    · rw [afterInstr_stepRun, runInstr_stepRun hu]
      exact hs
    · rw [afterInstr, if_pos hru]
      exact hpace.of_runInstr hdue hu

/-- During a run the host's calls only let the clock pass; between runs, without `run()`, they start none. -/
theorem RunOnPace.of_hostCalls {cs : List HostCall} (h : RunOnPace ms0 cycles0 s) (ht : hostCalls cs s = .ok t)
    (hrun : .run ∉ cs) : RunOnPace ms0 cycles0 t := by
  cases hr : s.running
  case false => exact fun hrt => absurd hrt (by simp [hostCalls_not_running ht hrun hr])
  case true =>
    have hkept : t.running = true ∧ t.stepRun = false ∧ OnPace ms0 cycles0 t := by
      refine hostCalls_induction (I := fun u => u.running = true ∧ u.stepRun = false ∧ OnPace ms0 cycles0 u) ?_ ht
        ⟨hr, h hr⟩
      intro c u u' hc ⟨hru, hsu, hu⟩
      rcases hostCall_ok_running hc hru with ⟨-, rfl⟩ | ⟨-, -, rfl⟩ | ⟨-, -, -, -, -, rfl⟩ | ⟨-, -, -, -, -, rfl⟩ |
        ⟨-, -, rfl⟩
      case inr.inr.inr.inr => exact ⟨hru, hsu, hu.of_clock_le rfl rfl (Nat.le_add_right _ _)⟩
      all_goals exact ⟨hru, hsu, hu.of_clock_le rfl rfl le_rfl⟩
    exact fun _ => hkept.2

/-- The invariant of the steps after the entry of a run: no `run()` to come, and on pace while the run lasts. -/
theorem step_keeps_runOnPace (h : step s = .next t)
    (hs : (∀ calls ∈ s.inputs, .run ∉ calls) ∧ RunOnPace ms0 cycles0 s) :
    (∀ calls ∈ t.inputs, .run ∉ calls) ∧ RunOnPace ms0 cycles0 t := by
  obtain ⟨hrun, hpace⟩ := hs
  rcases step_cases h with ⟨-, ht⟩ | ⟨calls, rest, u, hin, hu, ht⟩
  · rw [cpuTurn_inputs ht]
    exact ⟨hrun, hpace.of_cpuTurn ht⟩
  · rw [hin] at hrun
    obtain ⟨hcalls, hrest⟩ := List.forall_mem_cons.mp hrun
    have hpaceRest : RunOnPace ms0 cycles0 { s with inputs := rest } := fun hr =>
      have ⟨hs, hp⟩ := hpace hr
      ⟨hs, hp.of_clock_le rfl rfl le_rfl⟩
    rw [cpuTurn_inputs ht, hostCalls_inputs hu]
    exact ⟨hrest, (hpaceRest.of_hostCalls hu hcalls).of_cpuTurn ht⟩

end

/-- Settles O59: at the entry of a run nothing is spent and no budget given, and every step keeps the account. -/
theorem emulatedTimeNeverRunsAhead : Obligations.EmulatedTimeNeverRunsAhead := by
  intro n s0 t hr hs hpace hrun ht hrt
  have hentry : OnPace s0.clockMs s0.cycles s0 := by
    constructor <;> simp [hpace]
  have hend := run_induction (fun _ _ => step_keeps_runOnPace) ht ⟨hrun, fun _ => ⟨hs, hentry⟩⟩
  exact (hend.2 hrt).2.cycles_le

/-! ### Equal but for the scheduler and the clock (R107) -/

section
variable {s t : State}

theorem sameArchitecture_iff :
    SameArchitecture s t ↔ ∃ pace ms reads, t = { s with pace := pace, clockMs := ms, clockReads := reads } := by
  refine ⟨fun h => ⟨_, _, _, h⟩, ?_⟩
  rintro ⟨pace, ms, reads, rfl⟩
  rfl

theorem sameArchitecture_endRun (h : SameArchitecture s t) : SameArchitecture (endRun s) (endRun t) := by
  obtain ⟨pace, ms, reads, rfl⟩ := sameArchitecture_iff.mp h
  rfl

theorem sameArchitecture_advancePc (k : Word) (h : SameArchitecture s t) :
    SameArchitecture (advancePc s k) (advancePc t k) := by
  obtain ⟨pace, ms, reads, rfl⟩ := sameArchitecture_iff.mp h
  rfl

theorem sameArchitecture_paceCheckpoint (known known' : Bool) (h : SameArchitecture s t) :
    SameArchitecture (paceCheckpoint known s) (paceCheckpoint known' t) := by
  obtain ⟨pace, ms, reads, rfl⟩ := sameArchitecture_iff.mp h
  rfl

theorem sameArchitecture_afterInstr (i : Instr) (h : SameArchitecture s t) :
    SameArchitecture (afterInstr i s) (afterInstr i t) := by
  obtain ⟨pace, ms, reads, rfl⟩ := sameArchitecture_iff.mp h
  unfold afterInstr
  split <;> rfl

/-- The entry of a run sets the same scheduler variables, if any, in both. -/
theorem sameArchitecture_enterRun (h : SameArchitecture s t) : SameArchitecture (enterRun s) (enterRun t) := by
  obtain ⟨pace, ms, reads, rfl⟩ := sameArchitecture_iff.mp h
  unfold enterRun
  dsimp only
  split <;> rfl

/-- No row of the table looks at the scheduler or the clock. -/
theorem writes_of_sameArchitecture (i : Instr) (h : SameArchitecture s t) : writes i t = writes i s := by
  obtain ⟨pace, ms, reads, rfl⟩ := sameArchitecture_iff.mp h
  cases i <;> rfl

theorem exec_sameArchitecture {i : Instr} {s' : State} (h : SameArchitecture s t) (hs : exec i s = .next s') :
    ∃ t', exec i t = .next t' ∧ SameArchitecture s' t' := by
  obtain rfl := eq_of_exec_next hs
  refine ⟨_, exec_eq i t, ?_⟩
  rw [writes_of_sameArchitecture i h]
  obtain ⟨pace, ms, reads, rfl⟩ := sameArchitecture_iff.mp h
  rfl

theorem fetchInstr_of_sameArchitecture (h : SameArchitecture s t) : fetchInstr t = fetchInstr s := by
  obtain ⟨pace, ms, reads, rfl⟩ := sameArchitecture_iff.mp h
  rfl

theorem runInstr_sameArchitecture {s' : State} (h : SameArchitecture s t) (hs : runInstr s = .next s') :
    ∃ t', runInstr t = .next t' ∧ SameArchitecture s' t' := by
  rw [runInstr, fetchInstr_of_sameArchitecture h]
  exact exec_sameArchitecture (sameArchitecture_advancePc 1 h) hs

/-- The loop's conditions, like the mode of the run, are the same in both. -/
theorem loopControl_of_sameArchitecture (h : SameArchitecture s t) :
    t.running = s.running ∧ t.stepRun = s.stepRun ∧ t.idle = s.idle ∧ loopEnds t = loopEnds s := by
  obtain ⟨pace, ms, reads, rfl⟩ := sameArchitecture_iff.mp h
  exact ⟨rfl, rfl, rfl, rfl⟩

/-- A turn at which neither state waits does the same to both. -/
theorem cpuTurn_sameArchitecture {known known' : Bool} (h : SameArchitecture s t)
    (hw : s.running = true → s.stepRun = false → paceWaits known s = false ∧ paceWaits known' t = false) :
    ∃ s' t', cpuTurn known s = .next s' ∧ cpuTurn known' t = .next t' ∧ SameArchitecture s' t' := by
  obtain ⟨s', hturn⟩ := cpuTurn_total known s
  obtain ⟨hrun, hstep, hidle, hloop⟩ := loopControl_of_sameArchitecture h
  have hpaced := sameArchitecture_paceCheckpoint known known' h
  refine ⟨s', ?_⟩
  rcases cpuTurn_cases hturn with ⟨hr, rfl⟩ | ⟨hr, hs, hi, rfl⟩ | ⟨hr, hs, hi, u, hu, rfl⟩ | ⟨hr, hs, hwaits, rfl⟩ |
    ⟨hr, hs, -, hends, rfl⟩ | ⟨hr, hs, -, hgoesOn, u, hu, rfl⟩
  · exact ⟨t, hturn, cpuTurn_stopped known' (hrun.trans hr), h⟩
  · exact ⟨_, hturn, cpuTurn_singleStep_idle known' (hrun.trans hr) (hstep.trans hs) (hidle.trans hi),
      sameArchitecture_endRun h⟩
  · obtain ⟨v, hv, huv⟩ := runInstr_sameArchitecture h hu
    exact ⟨_, hturn, cpuTurn_singleStep known' (hrun.trans hr) (hstep.trans hs) (hidle.trans hi) hv,
      sameArchitecture_endRun huv⟩
  · exact absurd hwaits (by simp [hw hr hs])
  · exact ⟨_, hturn, cpuTurn_ends (hrun.trans hr) (hstep.trans hs) (hw hr hs).2 (hloop.trans hends),
      sameArchitecture_endRun hpaced⟩
  · obtain ⟨v, hv, huv⟩ := runInstr_sameArchitecture hpaced hu
    refine ⟨_, hturn, cpuTurn_runs (hrun.trans hr) (hstep.trans hs) (hw hr hs).2 (hloop.trans hgoesOn) hv, ?_⟩
    rw [fetchInstr_paceCheckpoint, fetchInstr_of_sameArchitecture h]
    exact sameArchitecture_afterInstr _ huv

/-- On the free clock, which never waits, any number of steps does the same to both. -/
theorem run_sameArchitecture (n : Nat) (h : SameArchitecture s t) (hin : s.inputs = []) :
    ∃ s' t', Sys2Proof.core.run n s = .next s' ∧ Sys2Proof.core.run n t = .next t' ∧ SameArchitecture s' t' := by
  induction n generalizing s t with
  | zero => exact ⟨s, t, rfl, rfl, h⟩
  | succ n ih =>
    obtain ⟨s', t', hs, ht, hst⟩ :=
      cpuTurn_sameArchitecture h fun _ _ => ⟨paceWaits_free s, paceWaits_free t⟩
    have hint : t.inputs = [] := (congrArg State.inputs h).trans hin
    rw [run_next ((step_no_inputs hin).trans hs), run_next ((step_no_inputs hint).trans ht)]
    exact ih hst ((cpuTurn_inputs hs).trans hin)

/-! ### The host's calls (R107) -/

/-- An argument in range gives an effect in both states, one out of range in neither. -/
theorem optionRel_map {α : Type} {R : State → State → Prop} (o : Option α) {f g : α → State}
    (h : ∀ a, R (f a) (g a)) : Option.Rel R (o.map f) (o.map g) := by
  cases o
  case none => exact .none
  case some a => exact .some (h a)

/-- What a host call does to the state does not depend on the scheduler or the clock. -/
theorem hostEffect_sameArchitecture (c : HostCall) (h : SameArchitecture s t) :
    Option.Rel SameArchitecture (hostEffect c s) (hostEffect c t) := by
  have hrun := sameArchitecture_enterRun h
  obtain ⟨pace, ms, reads, rfl⟩ := sameArchitecture_iff.mp h
  cases c
  case run => exact .some hrun
  case reset =>
    simp only [hostEffect, resetCpu_eq]
    exact .some rfl
  case setQ =>
    simp only [hostEffect, qWrite_eq]
    exact .some rfl
  case setExternalFlag | setInPort => exact optionRel_map _ fun _ => rfl
  case setByte =>
    simp only [hostEffect, writeByte_eq]
    exact optionRel_map _ fun _ => rfl
  case setBytes =>
    simp only [hostEffect, writeBytes_eq]
    exact optionRel_map _ fun _ => rfl
  case setOutPort =>
    simp only [hostEffect, outPortWrite_eq]
    exact optionRel_map _ fun _ => rfl
  all_goals exact .some rfl

/-- Two answers of the host's interface that agree: states that are architecturally equal, or one refusal. -/
inductive SameAnswer : Except Refusal State → Except Refusal State → Prop where
  | ok {s t : State} (h : SameArchitecture s t) : SameAnswer (.ok s) (.ok t)
  | error (r : Refusal) : SameAnswer (.error r) (.error r)

theorem SameAnswer.of_ok {b : Except Refusal State} (h : SameAnswer (.ok s) b) :
    ∃ t, b = .ok t ∧ SameArchitecture s t := by
  cases h with
  | ok h' => exact ⟨_, rfl, h'⟩

theorem SameAnswer.of_error {r : Refusal} {b : Except Refusal State} (h : SameAnswer (.error r) b) : b = .error r := by
  cases h
  rfl

theorem hostCall_sameAnswer (c : HostCall) (h : SameArchitecture s t) : SameAnswer (hostCall c s) (hostCall c t) := by
  have heffect := hostEffect_sameArchitecture c h
  obtain ⟨hrun, -⟩ := loopControl_of_sameArchitecture h
  unfold hostCall
  rw [hrun]
  split
  · exact .error _
  · generalize hostEffect c s = a, hostEffect c t = b at heffect ⊢
    cases heffect with
    | some h' => exact .ok h'
    | none => exact .error _

theorem hostCalls_sameAnswer (cs : List HostCall) (h : SameArchitecture s t) :
    SameAnswer (hostCalls cs s) (hostCalls cs t) := by
  induction cs generalizing s t with
  | nil => exact .ok h
  | cons c cs ih =>
    have hcall := hostCall_sameAnswer c h
    unfold hostCalls
    generalize hostCall c s = a, hostCall c t = b at hcall ⊢
    cases hcall with
    | ok h' => exact ih h'
    | error r => exact .error r

end

/-- Settles O60: the free clock never waits; the calls give the same answers; a turn waits or does the same to both. -/
theorem pacingHasNoArchitecturalEffect : Obligations.PacingHasNoArchitecturalEffect := by
  intro s t h
  refine ⟨fun hin n => run_sameArchitecture n h hin, fun calls => ?_, fun known known' => ?_⟩
  · have hanswer := hostCalls_sameAnswer calls h
    exact ⟨fun s' hs => (hs ▸ hanswer).of_ok, fun r hs => (hs ▸ hanswer).of_error⟩
  · exact ⟨fun hr hs hw => cpuTurn_waits hr hs hw, cpuTurn_sameArchitecture h⟩

end Sys2Proof.Machine
end

section
/-! PROOFS. Logic, arithmetic and shifts (42_alu.md). The adder is one equation, the sum with its carry as a ninth bit;
subtraction is that equation with one operand complemented, and a carry chain is two of them. A rotation through DF
moves the nine bits of D and DF round a ring. -/

namespace Sys2Proof.Machine

/-! ### The operand and its byte (R110) -/

/-- Past its operand byte an instruction has moved `R[P]` by one and no other register (R110 b). -/
theorem oneRegister_pastOperand (i : Instr) (s : State) (w : Writes) :
    OneRegister s (complete i ((w.pastOperand s).apply s)) s.p (getReg s s.p + 1) := fun m => by
  rw [getReg_complete, Writes.getReg_apply]
  rfl

/-- Settles O1: each form's row of the table writes D the bitwise result. -/
theorem logicFormsActBitwiseAndKeepDF : Obligations.LogicFormsActBitwiseAndKeepDF := by
  intro s imm b2
  refine ⟨⟨rfl, rfl, rfl, rfl, rfl, rfl⟩, ⟨_, exec_eq _ s, ?or, rfl⟩, ⟨_, exec_eq _ s, ?and, rfl⟩,
    ⟨_, exec_eq _ s, ?xor, rfl⟩, ⟨_, exec_eq _ s, ?ori, oneRegister_pastOperand _ s _, rfl⟩,
    ⟨_, exec_eq _ s, ?ani, oneRegister_pastOperand _ s _, rfl⟩,
    ⟨_, exec_eq _ s, ?xri, oneRegister_pastOperand _ s _, rfl⟩⟩
  case or | ori => exact fun _ _ => BitVec.getLsbD_or
  case and | ani => exact fun _ _ => BitVec.getLsbD_and
  case xor | xri => exact fun _ _ => BitVec.getLsbD_xor

/-! ### Addition (R117 to R120) -/

theorem add8_snd_eq_true_iff (a b : Byte) (c : Bool) :
    (add8 a b c).2 = true ↔ 255 < a.toNat + b.toNat + c.toNat := by
  rw [add8_snd, decide_eq_true_iff]

/-- Settles O2: the forms are the adder on D and the operand, with no carry in or with DF. -/
theorem additionFormsAddWithCarryOut : Obligations.AdditionFormsAddWithCarryOut := by
  intro s imm b2
  exact ⟨⟨rfl, rfl, rfl, rfl⟩,
    ⟨_, exec_eq _ s, add8_fst_toNat _ _ false, add8_snd_eq_true_iff _ _ false, rfl⟩,
    ⟨_, exec_eq _ s, add8_fst_toNat _ _ s.df, add8_snd_eq_true_iff _ _ s.df, rfl⟩,
    ⟨_, exec_eq _ s, add8_fst_toNat _ _ false, add8_snd_eq_true_iff _ _ false, oneRegister_pastOperand _ s _, rfl⟩,
    ⟨_, exec_eq _ s, add8_fst_toNat _ _ s.df, add8_snd_eq_true_iff _ _ s.df, oneRegister_pastOperand _ s _, rfl⟩⟩

/-! ### Subtraction (R121 to R128) -/

theorem add8_comm (a b : Byte) (c : Bool) : add8 a b c = add8 b a c := by
  simp only [add8, Nat.add_comm a.toNat]

theorem byte_toNat_not (a : Byte) : ((~~~a).toNat : Int) = 255 - a.toNat := by
  have := a.isLt
  rw [BitVec.toNat_not]
  omega

/-- With `a` complemented the adder subtracts `a`: a carry in of 0 is a borrow, a carry out of 1 is none. -/
theorem add8_not_left (a b : Byte) (c : Bool) :
    ((add8 (~~~a) b c).1.toNat : Int) = (b.toNat - a.toNat - (1 - c.toNat) : Int) % 256 ∧
      ((add8 (~~~a) b c).2 = true ↔ (0 : Int) ≤ b.toNat - a.toNat - (1 - c.toNat)) := by
  have hnot := byte_toNat_not a
  rw [add8_fst_toNat, add8_snd_eq_true_iff]
  omega

/-- With a carry in of 1 there is no borrow to take off. -/
theorem add8_not_left_true (a b : Byte) :
    ((add8 (~~~a) b true).1.toNat : Int) = (b.toNat - a.toNat : Int) % 256 ∧
      ((add8 (~~~a) b true).2 = true ↔ a.toNat ≤ b.toNat) := by
  simpa using add8_not_left a b true

theorem add8_not_right (a b : Byte) (c : Bool) :
    ((add8 a (~~~b) c).1.toNat : Int) = (a.toNat - b.toNat - (1 - c.toNat) : Int) % 256 ∧
      ((add8 a (~~~b) c).2 = true ↔ (0 : Int) ≤ a.toNat - b.toNat - (1 - c.toNat)) :=
  add8_comm a (~~~b) c ▸ add8_not_left b a c

theorem add8_not_right_true (a b : Byte) :
    ((add8 a (~~~b) true).1.toNat : Int) = (a.toNat - b.toNat : Int) % 256 ∧
      ((add8 a (~~~b) true).2 = true ↔ b.toNat ≤ a.toNat) :=
  add8_comm a (~~~b) true ▸ add8_not_left_true b a

/-- Settles O3: the forms are the adder on D complemented and the operand. -/
theorem sdFamilySubtractsDFromTheOperand : Obligations.SdFamilySubtractsDFromTheOperand := by
  intro s imm b2
  have ⟨hsd, hsdDF⟩ := add8_not_left_true s.d (memOperand s)
  have ⟨hsdb, hsdbDF⟩ := add8_not_left s.d (memOperand s) s.df
  have ⟨hsdi, hsdiDF⟩ := add8_not_left_true s.d imm
  have ⟨hsdbi, hsdbiDF⟩ := add8_not_left s.d imm s.df
  exact ⟨⟨rfl, rfl, rfl, rfl⟩, ⟨_, exec_eq _ s, hsd, hsdDF, rfl⟩, ⟨_, exec_eq _ s, hsdb, hsdbDF, rfl⟩,
    ⟨_, exec_eq _ s, hsdi, hsdiDF, oneRegister_pastOperand _ s _, rfl⟩,
    ⟨_, exec_eq _ s, hsdbi, hsdbiDF, oneRegister_pastOperand _ s _, rfl⟩⟩

/-- Settles O4: the forms are the adder on D and the operand complemented. -/
theorem smFamilySubtractsTheOperandFromD : Obligations.SmFamilySubtractsTheOperandFromD := by
  intro s imm b2
  have ⟨hsm, hsmDF⟩ := add8_not_right_true s.d (memOperand s)
  have ⟨hsmb, hsmbDF⟩ := add8_not_right s.d (memOperand s) s.df
  have ⟨hsmi, hsmiDF⟩ := add8_not_right_true s.d imm
  have ⟨hsmbi, hsmbiDF⟩ := add8_not_right s.d imm s.df
  exact ⟨⟨rfl, rfl, rfl, rfl⟩, ⟨_, exec_eq _ s, hsm, hsmDF, rfl⟩, ⟨_, exec_eq _ s, hsmb, hsmbDF, rfl⟩,
    ⟨_, exec_eq _ s, hsmi, hsmiDF, oneRegister_pastOperand _ s _, rfl⟩,
    ⟨_, exec_eq _ s, hsmbi, hsmbiDF, oneRegister_pastOperand _ s _, rfl⟩⟩

/-! ### Sixteen bits in two bytes (R135) -/

/-- The sum with its carry as a ninth bit (R110 c). -/
theorem add8_toNat (a b : Byte) (c : Bool) :
    (add8 a b c).1.toNat + 256 * (add8 a b c).2.toNat = a.toNat + b.toNat + c.toNat := by
  have hcarry := add8_snd_eq_true_iff a b c
  have hle := (add8 a b c).2.toNat_le
  have hc := c.toNat_le
  rw [← Bool.toNat_eq_one] at hcarry
  rw [add8_fst_toNat]
  omega

/-- Adding the low bytes and then, with the carry between them, the high bytes: the sum with its carry as a 17th bit. -/
theorem add8_chain_toNat (a b : Word) (c : Bool) {lo hi : Byte × Bool}
    (hlo : lo = add8 (loByte a) (loByte b) c) (hhi : hi = add8 (hiByte a) (hiByte b) lo.2) :
    (joinBytes hi.1 lo.1).toNat + 65536 * hi.2.toNat = a.toNat + b.toNat + c.toNat := by
  have low := add8_toNat (loByte a) (loByte b) c
  have high := add8_toNat (hiByte a) (hiByte b) lo.2
  rw [← hlo, loByte_toNat, loByte_toNat] at low
  rw [← hhi, hiByte_toNat, hiByte_toNat] at high
  rw [joinBytes_toNat]
  omega

/-- Two instructions in the table with the adder on the low and on the high bytes of `a` and `b`, DF kept between. -/
theorem exec_chain {i j : Instr} {a b : Word} {c : Bool} {s1 s2 t1 : State} (h : exec i s1 = .next t1)
    (hdf : s2.df = t1.df) (hi : writes i s1 = .dAndDF (add8 (loByte a) (loByte b) c))
    (hj : writes j s2 = .dAndDF (add8 (hiByte a) (hiByte b) s2.df)) :
    ∃ t2, exec j s2 = .next t2 ∧
      (joinBytes t2.d t1.d).toNat + 65536 * t2.df.toNat = a.toNat + b.toNat + c.toNat := by
  obtain rfl := eq_of_exec_next h
  refine ⟨_, exec_eq j s2, ?_⟩
  rw [hj, hdf, hi]
  exact add8_chain_toNat a b c rfl rfl

theorem loByte_not (w : Word) : loByte (~~~w) = ~~~loByte w := by
  ext k hk
  simp [loByte, show k < 16 by omega]

theorem hiByte_not (w : Word) : hiByte (~~~w) = ~~~hiByte w := by
  ext k hk
  simp [hiByte, show 8 + k < 16 by omega]

theorem word_eq_add {w a b : Word} {carry : Bool} (h : w.toNat + 65536 * carry.toNat = a.toNat + b.toNat) :
    w = a + b ∧ (carry = true ↔ 65535 < a.toNat + b.toNat) := by
  have hle := carry.toNat_le
  rw [← Bool.toNat_eq_one]
  exact ⟨by bv_omega, by omega⟩

/-- The complement and 1 are the two's-complement negation. -/
theorem word_eq_sub {w a b : Word} {carry : Bool}
    (h : w.toNat + 65536 * carry.toNat = a.toNat + (~~~b).toNat + 1) :
    w = a - b ∧ (carry = true ↔ b.toNat ≤ a.toNat) := by
  have hle := carry.toNat_le
  rw [BitVec.toNat_not] at h
  rw [← Bool.toNat_eq_one]
  exact ⟨by bv_omega, by omega⟩

/-- Settles O7: each pair is the chain of the adder on `a` and `b`, one of them complemented for a difference. -/
theorem carryChainsComputeSixteenBitResults : Obligations.CarryChainsComputeSixteenBitResults := by
  intro a b s1 s2 t1 hd1 hm1 hd2 hm2 hdf
  refine ⟨fun h => ?_, fun h => ?_, fun h => ?_⟩
  · obtain ⟨t2, ht2, hsum⟩ := exec_chain (j := .smb) (a := a) (b := ~~~b) (c := true) h hdf
      (by rw [loByte_not, ← hd1, ← hm1]; rfl) (by rw [hiByte_not, ← hd2, ← hm2]; rfl)
    exact ⟨t2, ht2, word_eq_sub hsum⟩
  · obtain ⟨t2, ht2, hsum⟩ := exec_chain (j := .sdb) (a := ~~~a) (b := b) (c := true) h hdf
      (by rw [loByte_not, ← hd1, ← hm1]; rfl) (by rw [hiByte_not, ← hd2, ← hm2]; rfl)
    exact ⟨t2, ht2, word_eq_sub (by rw [hsum, Nat.add_comm b.toNat]; rfl)⟩
  · obtain ⟨t2, ht2, hsum⟩ := exec_chain (j := .adc) (a := a) (b := b) (c := false) h hdf
      (by rw [← hd1, ← hm1]; rfl) (by rw [← hd2, ← hm2]; rfl)
    exact ⟨t2, ht2, word_eq_add hsum⟩

/-! ### Shifts (R129 to R132) -/

theorem shiftRight_snd_eq_true_iff (a : Byte) (b : Bool) : (shiftRight a b).2 = true ↔ a.toNat % 2 = 1 := by
  rw [shiftRight_snd, decide_eq_true_iff]

theorem shiftLeft_snd_eq_true_iff (a : Byte) (b : Bool) : (shiftLeft a b).2 = true ↔ 128 ≤ a.toNat := by
  rw [shiftLeft_snd, decide_eq_true_iff]

/-- Settles O5: the forms are the two shifts of D, with 0 or DF shifted in. -/
theorem shiftsMoveOneBitThroughDF : Obligations.ShiftsMoveOneBitThroughDF := by
  intro s b1 b2
  have hshr : (shiftRight s.d false).1.toNat = s.d.toNat / 2 := by simp [shiftRight_fst_toNat]
  exact ⟨⟨rfl, rfl, rfl, rfl⟩,
    ⟨_, exec_eq _ s, hshr, shiftRight_snd_eq_true_iff _ false, rfl⟩,
    ⟨_, exec_eq _ s, shiftRight_fst_toNat _ _, shiftRight_snd_eq_true_iff _ s.df, rfl⟩,
    ⟨_, exec_eq _ s, shiftLeft_fst_toNat _ false, shiftLeft_snd_eq_true_iff _ false, rfl⟩,
    ⟨_, exec_eq _ s, shiftLeft_fst_toNat _ _, shiftLeft_snd_eq_true_iff _ s.df, rfl⟩⟩

/-! ### Rotations through DF (R130, R132) -/

/-- `SHRC` on D and DF (R130). -/
def rotateRight (r : Byte × Bool) : Byte × Bool := shiftRight r.1 r.2

/-- `SHLC` on D and DF (R132). -/
def rotateLeft (r : Byte × Bool) : Byte × Bool := shiftLeft r.1 r.2

/-- D and DF as a ring of nine bits, with DF as bit 8. -/
def ringBit (r : Byte × Bool) (k : Fin 9) : Bool := if k = 8 then r.2 else r.1.getLsbD k

theorem shiftRight_fst_getElem (a : Byte) (b : Bool) {k : Nat} (hk : k < 8) :
    (shiftRight a b).1[k] = if h : k < 7 then a[k + 1] else b := by
  refine (BitVec.getElem_append (x := BitVec.ofBool b) (y := a.extractLsb' 1 7) hk).trans ?_
  split
  · rw [BitVec.getElem_extractLsb', Nat.add_comm, BitVec.getLsbD_eq_getElem]
  · simp

theorem ringBit_rotateRight (r : Byte × Bool) (k : Fin 9) : ringBit (rotateRight r) k = ringBit r (k + 1) := by
  have hout : (shiftRight r.1 r.2).2 = r.1.getLsbD 0 := rfl
  fin_cases k <;> simp [ringBit, rotateRight, shiftRight_fst_getElem, hout]

theorem ringBit_injective : Function.Injective ringBit := by
  intro r r' h
  refine Prod.ext (BitVec.eq_of_getLsbD_eq fun k hk => ?_) (congrFun h 8)
  have := congrFun h ⟨k, by omega⟩
  simpa [ringBit, Fin.ext_iff, show k ≠ 8 by omega] using this

theorem ringBit_rotateRight_iterate (n : Nat) (r : Byte × Bool) (k : Fin 9) :
    ringBit (rotateRight^[n] r) k = ringBit r (k + n • 1) := by
  induction n generalizing r with
  | zero => simp
  | succ n ih => rw [Function.iterate_succ_apply, ih, ringBit_rotateRight, add_assoc, ← succ_nsmul]

/-- Once round the ring. -/
theorem rotateRight_iterate_nine (r : Byte × Bool) : rotateRight^[9] r = r :=
  ringBit_injective (funext fun k => by
    rw [ringBit_rotateRight_iterate, show 9 • (1 : Fin 9) = 0 from rfl, add_zero])

theorem rotateLeft_rotateRight : Function.LeftInverse rotateLeft rotateRight := by
  rintro ⟨a, b⟩
  revert a b
  decide

/-- The inverse of once round the ring. -/
theorem rotateLeft_iterate_nine (r : Byte × Bool) : rotateLeft^[9] r = r := by
  calc rotateLeft^[9] r = rotateLeft^[9] (rotateRight^[9] r) := by rw [rotateRight_iterate_nine]
    _ = r := rotateLeft_rotateRight.iterate 9 r

/-- An instruction that acts on D and DF alone, `n` times. -/
theorem execAll_replicate {i : Instr} {f : Byte × Bool → Byte × Bool}
    (hi : ∀ s, writes i s = .dAndDF (f (s.d, s.df))) (n : Nat) (s : State) :
    execAll (List.replicate n i) s =
      .next { setDandDF s (f^[n] (s.d, s.df)) with cycles := s.cycles + n * cost i } := by
  induction n generalizing s with
  | zero => simp [execAll, setDandDF]
  | succ n ih =>
    have hcycles : s.cycles + (n + 1) * cost i = s.cycles + cost i + n * cost i := by
      rw [Nat.succ_mul]
      omega
    rw [List.replicate_succ, execAll, exec_eq, hi, Function.iterate_succ_apply, hcycles]
    exact ih _

/-- Settles O6: nine rotations go once round the ring of nine bits. -/
theorem nineRotationsRestoreDAndDF : Obligations.NineRotationsRestoreDAndDF := by
  intro s
  rw [execAll_replicate (f := rotateRight) fun _ => rfl, execAll_replicate (f := rotateLeft) fun _ => rfl,
    rotateRight_iterate_nine, rotateLeft_iterate_nine]
  exact ⟨rfl, rfl⟩

end Sys2Proof.Machine
end

section
/-! PROOFS. Loads, stores, register steps and register bytes (43_load_store_register.md). Each instruction is one row of
the table of write sets: the register in the row is the one that moves, the store in it the one byte of memory that can
differ, and the frame is what the row leaves out. -/

namespace Sys2Proof.Machine

/-! ### From a row of the table to its effect -/

/-- An instruction of one byte is selected by that byte, whatever the two bytes after it are (30_encoding.md R62). -/
theorem decodeOp_of_encode_eq_singleton {i : Instr} {op : Byte} (hi : i.wellFormed = true) (h : encode i = [op])
    (b1 b2 : Byte) : decodeOp op b1 b2 = i :=
  decodeOp_of_encode_append (rest := [b1, b2]) hi (congrArg (· ++ [b1, b2]) h)

theorem oneRegister_of_reg_eq_some {i : Instr} {s : State} {n : Nibble} {v : Word}
    (h : (writes i s).reg = some (n, v)) : OneRegister s (complete i ((writes i s).apply s)) n v := fun m => by
  rw [getReg_complete, Writes.getReg_apply, h]
  rfl

theorem storedAt_of_store_eq_some {i : Instr} {s : State} {a : Word} {v : Byte}
    (h : (writes i s).store = some (a, v)) : StoredAt s (complete i ((writes i s).apply s)) a v := fun b => by
  have hmem : ((writes i s).apply s).mem = (writeByte s a v).mem := by
    rw [Writes.apply_mem, h]
    rfl
  rw [readByte_complete, readByte_congr hmem, readByte_writeByte]

/-- What an instruction does whose row has one register and nothing else. -/
theorem exec_of_writes_eq_reg {i : Instr} {s : State} {n : Nibble} {v : Word} {k : Nat}
    (h : writes i s = { reg := some (n, v) }) (hk : v.toNat = k) :
    ∃ t, exec i s = .next t ∧ (getReg t n).toNat = k ∧ (∀ m, m ≠ n → getReg t m = getReg s m) ∧
      t = { s with regs := t.regs, cycles := s.cycles + cost i } := by
  have hone : OneRegister s (complete i ((writes i s).apply s)) n v := oneRegister_of_reg_eq_some (by rw [h])
  refine ⟨_, exec_eq i s, ?_, fun m hm => (hone m).trans (if_neg hm), ?_⟩
  · rw [hone n, if_pos rfl, hk]
  · rw [h]
    rfl

/-! ### Loads (R141 to R145) -/

/-- Settles O8: each load's row has the addressed byte for D; LDA and LDXA step the address register, LDI the PC. -/
theorem loadsTakeTheAddressedByteIntoD : Obligations.LoadsTakeTheAddressedByteIntoD := by
  intro s n imm b2
  refine ⟨⟨fun hn => decodeOp_ldn hn imm b2, ?lda, ?ldx, ?ldxa, ?ldi⟩, fun _ => exec_eq _ s, exec_eq _ s,
    ⟨_, exec_eq _ s, rfl, oneRegister_of_reg_eq_some rfl, rfl⟩,
    ⟨_, exec_eq _ s, rfl, oneRegister_of_reg_eq_some rfl, rfl⟩,
    ⟨_, exec_eq _ s, rfl, oneRegister_pastOperand _ s _, rfl⟩⟩
  case ldi => exact decodeOp_of_encode_append (i := .ldi imm) (rest := [b2]) rfl rfl
  all_goals exact decodeOp_of_encode_eq_singleton rfl rfl imm b2

/-! ### Stores (R146, R147; 45_control.md R205) -/

/-- Settles O9: each store's row has its one byte and address, and STXD's the register it steps down. -/
theorem storesWriteOneByteAndNothingElse : Obligations.StoresWriteOneByteAndNothingElse := by
  intro s n b1 b2
  refine ⟨⟨?_, ?_, ?_⟩, ⟨_, exec_eq _ s, storedAt_of_store_eq_some rfl, rfl⟩,
    ⟨_, exec_eq _ s, storedAt_of_store_eq_some rfl, oneRegister_of_reg_eq_some rfl, rfl⟩,
    ⟨_, exec_eq _ s, storedAt_of_store_eq_some rfl, rfl⟩⟩
  all_goals exact decodeOp_of_encode_eq_singleton rfl rfl b1 b2

/-! ### Register steps (R148 to R150) -/

/-- A step down is a step up by 65535 (10_state.md R11). -/
theorem word_sub_one_toNat (w : Word) : (w - 1).toNat = (w.toNat + 65535) % 65536 := by
  rw [BitVec.toNat_sub, Nat.add_comm]
  rfl

/-- Settles O10: the row of each has one register, stepped up or down, and nothing else. -/
theorem registerStepsWrapAndTouchNoFlag : Obligations.RegisterStepsWrapAndTouchNoFlag := by
  intro s n b1 b2
  refine ⟨⟨?_, ?_, ?_⟩, exec_of_writes_eq_reg rfl (BitVec.toNat_add _ 1),
    exec_of_writes_eq_reg rfl (BitVec.toNat_add _ 1), exec_of_writes_eq_reg rfl (word_sub_one_toNat _)⟩
  all_goals exact decodeOp_of_encode_eq_singleton rfl rfl b1 b2

/-! ### Register bytes (R151 to R154) -/

/-- Settles O11: the halves of a word are its quotient and remainder by 256, and joining two bytes undoes that. -/
theorem registerBytesMoveThroughD : Obligations.RegisterBytesMoveThroughD := by
  intro s n b1 b2
  refine ⟨⟨?_, ?_, ?_, ?_⟩, ⟨_, exec_eq _ s, loByte_toNat _, rfl⟩, ⟨_, exec_eq _ s, hiByte_toNat _, rfl⟩,
    exec_of_writes_eq_reg rfl ?plo, exec_of_writes_eq_reg rfl ?phi⟩
  case plo => rw [joinBytes_toNat, hiByte_toNat]
  case phi => rw [joinBytes_toNat, loByte_toNat]
  all_goals exact decodeOp_of_encode_eq_singleton rfl rfl b1 b2

end Sys2Proof.Machine
end

section
/-! PROOFS. Branches and skips (44_branch_skip.md). Each instruction is one row of the table of write sets, which moves
`R[P]` to one of two places by a predicate; what the predicate says of the state is one lemma each, what a branch or a
skip makes of it one lemma per form. -/

namespace Sys2Proof.Machine

/-! ### The predicates (R163) -/

theorem Cond.holds_always_iff (s : State) : Cond.always.holds s = true ↔ True := iff_true_intro rfl

theorem Cond.holds_z_iff (s : State) : Cond.z.holds s = true ↔ s.d.toNat = 0 :=
  beq_iff_eq.trans BitVec.toNat_inj.symm

theorem Cond.holds_nz_iff (s : State) : Cond.nz.holds s = true ↔ s.d.toNat ≠ 0 :=
  bne_iff_ne.trans BitVec.toNat_inj.not.symm

theorem Cond.holds_nq_iff (s : State) : Cond.nq.holds s = true ↔ s.q = false := iff_of_eq (Bool.not_eq_true' _)

theorem Cond.holds_nf_iff (s : State) : Cond.nf.holds s = true ↔ s.df = false := iff_of_eq (Bool.not_eq_true' _)

theorem Cond.holds_nef_iff (k : Fin 4) (s : State) : (Cond.nef k).holds s = true ↔ s.ef[k] = false :=
  iff_of_eq (Bool.not_eq_true' _)

/-! ### What a branch or a skip does (R160 to R162) -/

section
variable {i : Instr} {s : State} {c : Cond} {taken : Prop}

/-- An instruction whose row moves `R[P]` by a predicate moves it so, and does nothing else. -/
theorem exec_of_writes_eq_pc {v w : Word} (h : writes i s = { reg := some (s.p, if c.holds s then v else w) })
    (hc : c.holds s = true ↔ taken) :
    ∃ t, exec i s = .next t ∧ (taken → getReg t s.p = v) ∧ (¬taken → getReg t s.p = w) ∧
      (∀ m, m ≠ s.p → getReg t m = getReg s m) ∧ t = { s with regs := t.regs, cycles := s.cycles + cost i } := by
  obtain ⟨t, ht, hvalue, hother, hframe⟩ := exec_of_writes_eq_reg h rfl
  have hpc := BitVec.eq_of_toNat_eq hvalue
  exact ⟨t, ht, fun hyes => hpc.trans (if_pos (hc.mpr hyes)), fun hno => hpc.trans (if_neg (mt hc.mp hno)), hother,
    hframe⟩

/-- Taken, the operand byte replaces the low half of `R[P]` (R160). -/
theorem exec_shortBranch {b : Byte} (h : writes i s = .shortBranch c b s) (hcost : cost i = 2)
    (hc : c.holds s = true ↔ taken) : ∃ t, exec i s = .next t ∧ ShortBranchEffect taken b s t := by
  obtain ⟨t, ht, htaken, hnot, hother, hframe⟩ := exec_of_writes_eq_pc h hc
  refine ⟨t, ht, fun hyes => ?_, fun hno => ?_, hother, hcost ▸ hframe⟩
  · rw [htaken hyes, joinBytes_toNat, hiByte_toNat, Nat.mul_comm]
  · rw [hnot hno]
    exact BitVec.toNat_add _ 1

theorem exec_longBranch {target : Word} (h : writes i s = .longBranch c target s) (hcost : cost i = 3)
    (hc : c.holds s = true ↔ taken) : ∃ t, exec i s = .next t ∧ LongBranchEffect taken target s t := by
  obtain ⟨t, ht, htaken, hnot, hother, hframe⟩ := exec_of_writes_eq_pc h hc
  refine ⟨t, ht, htaken, fun hno => ?_, hother, hcost ▸ hframe⟩
  rw [hnot hno]
  exact BitVec.toNat_add _ 2

theorem exec_longSkip (h : writes i s = .longSkip c s) (hcost : cost i = 3) (hc : c.holds s = true ↔ taken) :
    ∃ t, exec i s = .next t ∧ LongSkipEffect taken s t := by
  obtain ⟨t, ht, htaken, hnot, hother, hframe⟩ := exec_of_writes_eq_pc h hc
  refine ⟨t, ht, fun hyes => ?_, hnot, hother, hcost ▸ hframe⟩
  rw [htaken hyes]
  exact BitVec.toNat_add _ 2

end

/-- Settles O12: the row of each is a short branch on its predicate. -/
theorem shortBranchesFollowTheirPredicate : Obligations.ShortBranchesFollowTheirPredicate := by
  intro s b b2
  exact ⟨⟨rfl, rfl, rfl, rfl, rfl, rfl, rfl, rfl, rfl, rfl, rfl, rfl, rfl, rfl, rfl⟩,
    exec_shortBranch rfl rfl (Cond.holds_always_iff s),
    exec_shortBranch (c := .q) rfl rfl Iff.rfl,
    exec_shortBranch rfl rfl (Cond.holds_z_iff s),
    exec_shortBranch (c := .df) rfl rfl Iff.rfl,
    exec_shortBranch (c := .ef 0) rfl rfl Iff.rfl,
    exec_shortBranch (c := .ef 1) rfl rfl Iff.rfl,
    exec_shortBranch (c := .ef 2) rfl rfl Iff.rfl,
    exec_shortBranch (c := .ef 3) rfl rfl Iff.rfl,
    exec_shortBranch rfl rfl (Cond.holds_nq_iff s),
    exec_shortBranch rfl rfl (Cond.holds_nz_iff s),
    exec_shortBranch rfl rfl (Cond.holds_nf_iff s),
    exec_shortBranch rfl rfl (Cond.holds_nef_iff 0 s),
    exec_shortBranch rfl rfl (Cond.holds_nef_iff 1 s),
    exec_shortBranch rfl rfl (Cond.holds_nef_iff 2 s),
    exec_shortBranch rfl rfl (Cond.holds_nef_iff 3 s)⟩

/-- Settles O13: the row of each is a long branch on its predicate. -/
theorem longBranchesFollowTheirPredicate : Obligations.LongBranchesFollowTheirPredicate := by
  intro s hi lo
  exact ⟨⟨rfl, rfl, rfl, rfl, rfl, rfl, rfl⟩,
    exec_longBranch rfl rfl (Cond.holds_always_iff s),
    exec_longBranch (c := .q) rfl rfl Iff.rfl,
    exec_longBranch rfl rfl (Cond.holds_z_iff s),
    exec_longBranch (c := .df) rfl rfl Iff.rfl,
    exec_longBranch rfl rfl (Cond.holds_nq_iff s),
    exec_longBranch rfl rfl (Cond.holds_nz_iff s),
    exec_longBranch rfl rfl (Cond.holds_nf_iff s)⟩

/-- Settles O14: the row of SKP steps `R[P]`, that of NOP is empty, that of each other is a long skip on its
predicate. -/
theorem skipsFollowTheirPredicate : Obligations.SkipsFollowTheirPredicate := by
  intro s b1 b2
  refine ⟨?decode, exec_of_writes_eq_reg rfl (BitVec.toNat_add _ 1),
    ⟨_, exec_eq .nop s, False.elim, fun _ => rfl, fun _ _ => rfl, rfl⟩,
    exec_longSkip rfl rfl (Cond.holds_always_iff s),
    exec_longSkip rfl rfl (Cond.holds_nq_iff s),
    exec_longSkip rfl rfl (Cond.holds_nz_iff s),
    exec_longSkip rfl rfl (Cond.holds_nf_iff s),
    exec_longSkip (c := .ie) rfl rfl Iff.rfl,
    exec_longSkip (c := .q) rfl rfl Iff.rfl,
    exec_longSkip rfl rfl (Cond.holds_z_iff s),
    exec_longSkip (c := .df) rfl rfl Iff.rfl⟩
  case decode => exact ⟨rfl, rfl, rfl, rfl, rfl, rfl, rfl, rfl, rfl, rfl⟩

/-! ### Row 3x by its low nibble (R163) -/

/-- The predicate of opcode `3N`, with `SKP` as the branch that is never taken. -/
def rowThreeCond (n : Nibble) : Cond :=
  match n.toNat with
  | 0 => .always
  | 1 => .q
  | 2 => .z
  | 3 => .df
  | 4 => .ef 0
  | 5 => .ef 1
  | 6 => .ef 2
  | 7 => .ef 3
  | 8 => .never
  | 9 => .nq
  | 10 => .nz
  | 11 => .nf
  | 12 => .nef 0
  | 13 => .nef 1
  | 14 => .nef 2
  | _ => .nef 3

/-- Every opcode of row 3x is a short branch on the predicate of its low nibble. -/
theorem writes_decodeOp_rowThree (n : Nibble) (b b2 : Byte) (s : State) :
    writes (decodeOp (joinNibbles 3 n) b b2) s = .shortBranch (rowThreeCond n) b s := by
  obtain ⟨k⟩ := n
  fin_cases k <;> rfl

/-- Bit 3 of the low nibble inverts the predicate. -/
theorem rowThreeCond_add_eight_holds {n : Nibble} (hn : n.toNat < 8) (s : State) :
    (rowThreeCond (n + 8)).holds s = !(rowThreeCond n).holds s := by
  obtain ⟨k, hk⟩ := n
  change k < 8 at hn
  interval_cases k <;> rfl

theorem getReg_of_exec_rowThree {n : Nibble} {b b2 : Byte} {s t : State}
    (h : exec (decodeOp (joinNibbles 3 n) b b2) s = .next t) :
    getReg t s.p =
      if (rowThreeCond n).holds s then joinBytes (hiByte (getReg s s.p)) b else getReg s s.p + 1 := by
  have hreg := congrArg Writes.reg (writes_decodeOp_rowThree n b b2 s)
  rw [eq_of_exec_next h, oneRegister_of_reg_eq_some hreg, if_pos rfl]

/-- Settles O15: the two opcodes have opposite predicates, so one branch is taken and the other is not. -/
theorem bitThreeOfRowThreeInvertsThePredicate : Obligations.BitThreeOfRowThreeInvertsThePredicate := by
  intro s t u n b hn ht hu
  rw [getReg_of_exec_rowThree ht, getReg_of_exec_rowThree hu, rowThreeCond_add_eight_holds hn]
  cases (rowThreeCond n).holds s
  case true => exact .inl ⟨rfl, rfl⟩
  case false => exact .inr ⟨rfl, rfl⟩

/-! ### Fetched branches (R80, R160, R161) -/

theorem advancePc_p (s : State) (k : Word) : (advancePc s k).p = s.p := rfl

theorem getReg_advancePc_self (s : State) (k : Word) : getReg (advancePc s k) s.p = getReg s s.p + k := by
  rw [advancePc_eq, getReg_setReg, if_pos rfl]

theorem runInstr_of_fetchInstr_eq {i : Instr} {s : State} (h : fetchInstr s = i) :
    runInstr s = exec i (advancePc s 1) := by
  rw [runInstr, h]

theorem fetchInstr_br {s : State} (h : readByte s (getReg s s.p) = 0x30) :
    fetchInstr s = .br (readByte s (getReg s s.p + 1)) := by
  rw [fetchInstr, pc_eq, h]
  rfl

theorem fetchInstr_lbr {s : State} (h : readByte s (getReg s s.p) = 0xC0) :
    fetchInstr s = .lbr (joinBytes (readByte s (getReg s s.p + 1)) (readByte s (getReg s s.p + 2))) := by
  rw [fetchInstr, pc_eq, h]
  rfl

/-- Settles O16: after the fetch `R[P]` points at the operand byte, whose page a short branch keeps; a long branch's
target is its two operand bytes. -/
theorem branchTargetsAreTheBytesAfterTheOpcode : Obligations.BranchTargetsAreTheBytesAfterTheOpcode := by
  intro s
  refine ⟨fun hop => ?_, fun hop => ?_⟩
  · obtain ⟨t, ht, htaken, -⟩ := exec_shortBranch (i := .br (readByte s (getReg s s.p + 1))) (s := advancePc s 1)
      rfl rfl (Cond.holds_always_iff _)
    have htarget := htaken trivial
    rw [advancePc_p, getReg_advancePc_self] at htarget
    exact ⟨t, (runInstr_of_fetchInstr_eq (fetchInstr_br hop)).trans ht, htarget⟩
  · obtain ⟨t, ht, htaken, -⟩ := exec_longBranch
      (i := .lbr (joinBytes (readByte s (getReg s s.p + 1)) (readByte s (getReg s s.p + 2)))) (s := advancePc s 1)
      rfl rfl (Cond.holds_always_iff _)
    refine ⟨t, (runInstr_of_fetchInstr_eq (fetchInstr_lbr hop)).trans ht, ?_⟩
    rw [Nat.mul_comm, ← joinBytes_toNat]
    exact congrArg BitVec.toNat (htaken trivial)

end Sys2Proof.Machine
end

section
/-! PROOFS. Control (45_control.md): the selectors, MARK with the RET that pops what it pushed, IDL; which rows of the
table of write sets have an entry for P, X, IE, T, the idle flag and Q; and the host's side, which has no entry. -/

namespace Sys2Proof.Machine

/-! ### SEP and SEX (R200, R201) -/

/-- Settles O17: the opcode's low nibble is the register number, the one entry of either row. -/
theorem selectorWritesChangeNothingElse : Obligations.SelectorWritesChangeNothingElse := by
  intro s n b1 b2
  have hsep : decodeOp (joinNibbles 0xD n) b1 b2 = .sep n := decodeOp_of_encode_eq_singleton rfl rfl b1 b2
  have hsex : decodeOp (joinNibbles 0xE n) b1 b2 = .sex n := decodeOp_of_encode_eq_singleton rfl rfl b1 b2
  rw [hsep, hsex]
  exact ⟨exec_eq _ s, exec_eq _ s, exec_eq _ s, exec_eq _ s⟩

/-! ### RET and DIS (R202, R203) -/

/-- What an instruction does whose row loads the selectors. -/
theorem exec_selectors {i : Instr} {s : State} {ie : Bool} (h : writes i s = .selectors ie s) (hcost : cost i = 2) :
    ∃ t, exec i s = .next t ∧ OneRegister s t s.x (getReg s s.x + 1) ∧
      t.x.toNat = (readByte s (getReg s s.x)).toNat / 16 ∧ t.p.toNat = (readByte s (getReg s s.x)).toNat % 16 ∧
      t.ie = ie ∧ t = { s with regs := t.regs, x := t.x, p := t.p, ie := t.ie, cycles := s.cycles + 2 } := by
  have hone := oneRegister_of_reg_eq_some (congrArg Writes.reg h)
  have hexec := exec_eq i s
  rw [h] at hone hexec
  rw [← hcost]
  exact ⟨_, hexec, hone, hiNibble_toNat _, loNibble_toNat _, rfl, rfl⟩

/-- Settles O18: the rows of the two load the selectors and differ only in IE. -/
theorem retAndDisLoadSelectorsThroughOldX : Obligations.RetAndDisLoadSelectorsThroughOldX := by
  intro s b1 b2
  refine ⟨⟨?_, ?_⟩, exec_selectors rfl rfl, exec_selectors rfl rfl⟩
  all_goals exact decodeOp_of_encode_eq_singleton rfl rfl b1 b2

/-! ### MARK, and the RET that pops what it pushed (R204, R207) -/

/-- Settles O19: the packed byte goes to T and to the row's store, and the row's register is `R[2]`. -/
theorem markSavesTheSelectorPair : Obligations.MarkSavesTheSelectorPair := by
  intro s b1 b2
  refine ⟨decodeOp_of_encode_eq_singleton rfl rfl b1 b2, _, exec_eq .mark s, ?packed,
    storedAt_of_store_eq_some rfl, rfl, oneRegister_of_reg_eq_some rfl, rfl⟩
  case packed =>
    rw [Nat.mul_comm]
    exact joinNibbles_toNat s.x s.p

/-- With MP clear the byte at the old `R[2]` is the packed pair. -/
theorem readByte_of_exec_mark {s t : State} (h : exec .mark s = .next t) (hmp : s.mp = false) :
    readByte t (getReg s 2) = joinNibbles s.x s.p := by
  have hstored : StoredAt s t (getReg s 2) (joinNibbles s.x s.p) := by
    rw [eq_of_exec_next h]
    exact storedAt_of_store_eq_some rfl
  exact (hstored _).trans (if_pos ⟨rfl, hmp⟩)

/-- Settles O20: RET's operand is the packed pair, whose nibbles are the old X and P. -/
theorem retRestoresWhatMarkPushed : Obligations.RetRestoresWhatMarkPushed := by
  intro s t u ht hmp hmem hptr
  have hpopped : memOperand u = joinNibbles s.x s.p := by
    rw [memOperand, dataPtr_eq, hptr, readByte_congr hmem, readByte_of_exec_mark ht hmp]
  refine ⟨_, exec_eq .ret u, ?_, ?_⟩
  · exact (congrArg hiNibble hpopped).trans (hiNibble_joinNibbles _ _)
  · exact (congrArg loNibble hpopped).trans (loNibble_joinNibbles _ _)

/-! ### IDL and the end of its run (R206, R85) -/

theorem loopEnds_of_idle {s : State} (h : s.idle = true) : loopEnds s = true := by
  simp [loopEnds, h]

/-- The turn of an idle machine on the free clock ends the run, if one is in progress, and moves nothing else but the
scheduler. -/
theorem cpuTurn_free_idle {s : State} (hi : s.idle = true) :
    ∃ t, cpuTurn false s = .next t ∧ t.running = false ∧ SameArchitecture (endRun s) t := by
  cases hr : s.running
  case false => exact ⟨s, cpuTurn_stopped false hr, hr, (endRun_of_not_running hr).symm⟩
  cases hs : s.stepRun
  case true => exact ⟨_, cpuTurn_singleStep_idle false hr hs hi, rfl, rfl⟩
  case false =>
    exact ⟨_, cpuTurn_ends hr hs (paceWaits_free s) (loopEnds_of_idle hi), rfl,
      sameArchitecture_endRun_paceCheckpoint false s⟩

/-- Settles O21: IDL's row has the idle flag alone, and with no inputs a step is a turn on the free clock. -/
theorem idlEndsTheRun : Obligations.IdlEndsTheRun := by
  intro s b1 b2
  refine ⟨decodeOp_of_encode_eq_singleton rfl rfl b1 b2, exec_eq .idl s, fun hi hin => ?_⟩
  rw [step_no_inputs hin]
  exact cpuTurn_free_idle hi

/-! ### Which instructions write control state (R208) -/

section
variable {i : Instr} {s : State}

theorem writes_p_ne_none (h : (writes i s).p ≠ none) : (∃ n, i = .sep n) ∨ i = .ret ∨ i = .dis := by
  cases i
  case sep | ret | dis => simp
  all_goals exact absurd rfl h

theorem writes_x_ne_none (h : (writes i s).x ≠ none) : (∃ n, i = .sex n) ∨ i = .ret ∨ i = .dis ∨ i = .mark := by
  cases i
  case sex | ret | dis | mark => simp
  all_goals exact absurd rfl h

theorem writes_ie_ne_none (h : (writes i s).ie ≠ none) : i = .ret ∨ i = .dis := by
  cases i
  case ret | dis => simp
  all_goals exact absurd rfl h

theorem writes_t_ne_none (h : (writes i s).t ≠ none) : i = .mark := by
  cases i
  case mark => rfl
  all_goals exact absurd rfl h

theorem writes_idle_ne_none (h : (writes i s).idle ≠ none) : i = .idl := by
  cases i
  case idl => rfl
  all_goals exact absurd rfl h

theorem writes_q_ne_none (h : (writes i s).q ≠ none) : i = .seq ∨ i = .req := by
  cases i
  case seq | req => simp
  all_goals exact absurd rfl h

end

/-- A field that changed has an entry in the write set. -/
theorem ne_none_of_getD_ne {α : Type} {entry : Option α} {old : α} (h : entry.getD old ≠ old) : entry ≠ none := by
  rintro rfl
  exact h rfl

/-- Settles O31: each of the six fields that changed has an entry in the write set, and only the named rows have one. -/
theorem onlyTheNamedInstructionsWriteControlState : Obligations.OnlyTheNamedInstructionsWriteControlState := by
  intro i s t ht
  obtain rfl := eq_of_exec_next ht
  exact ⟨fun h => writes_p_ne_none (s := s) (ne_none_of_getD_ne h),
    fun h => writes_x_ne_none (s := s) (ne_none_of_getD_ne h),
    fun h => writes_ie_ne_none (s := s) (ne_none_of_getD_ne h),
    fun h => writes_t_ne_none (s := s) (ne_none_of_getD_ne h),
    fun h => writes_idle_ne_none (s := s) (ne_none_of_getD_ne h),
    fun h => writes_q_ne_none (s := s) (ne_none_of_getD_ne h)⟩

/-! ### The host's side (R208) -/

/-- A write set has no entry for what the host owns. -/
theorem Writes.sameHostSide_apply (w : Writes) (s : State) : SameHostSide s (w.apply s) :=
  ⟨rfl, rfl, rfl, rfl, rfl, rfl, rfl, rfl, rfl, rfl, rfl, rfl⟩

/-- Settles O35: a handler is its write set and its cost. -/
theorem instructionsNeverWriteTheHostSide : Obligations.InstructionsNeverWriteTheHostSide := by
  intro i s t ht
  rw [eq_of_exec_next ht]
  exact (writes i s).sameHostSide_apply s

end Sys2Proof.Machine
end

section
/-! PROOFS. Input and output (46_io.md). The trace is about the output ports and Q, and these change only by a port
write or a write of Q: said once for the host's calls and for the instructions, so that what the two writes keep, every
step keeps. Then OUT, INP, SEQ and REQ. -/

namespace Sys2Proof.Machine

/-! ### The two writes of the output side (R220, R221) -/

section
variable {s : State}

theorem outPortWrite_of_eq {k : Fin 7} {v : Byte} (h : s.outPort[k] = v) : outPortWrite s k v = s := if_pos h

theorem outPortWrite_of_ne {k : Fin 7} {v : Byte} (h : s.outPort[k] ≠ v) :
    outPortWrite s k v = { s with outPort := s.outPort.set k v, events := s.events ++ [.portChanged k v] } := if_neg h

theorem qWrite_of_eq {b : Bool} (h : s.q = b) : qWrite s b = s := if_pos h

theorem qWrite_of_ne {b : Bool} (h : s.q ≠ b) :
    qWrite s b = { s with q := b, events := s.events ++ [.qChanged b] } := if_neg h

end

theorem getElem_outPortWrite (s : State) (k : Fin 7) (v : Byte) (j : Fin 7) :
    (outPortWrite s k v).outPort[j] = if j = k then v else s.outPort[j] := by
  simp [Vector.getElem_set, Fin.ext_iff, eq_comm]

/-! ### The port instructions by array index (R217) -/

theorem exec_outInstr (k : Fin 7) (s : State) :
    exec (outInstr k) s = .next (complete (outInstr k) (sendToPort k s)) := by
  fin_cases k <;> rfl

theorem exec_inpInstr (k : Fin 7) (s : State) :
    exec (inpInstr k) s = .next (complete (inpInstr k) (readFromPort k s)) := by
  fin_cases k <;> rfl

theorem cost_outInstr (k : Fin 7) : cost (outInstr k) = 2 := by
  revert k
  decide

theorem cost_inpInstr (k : Fin 7) : cost (inpInstr k) = 2 := by
  revert k
  decide

theorem decodeOp_outInstr (k : Fin 7) (b1 b2 : Byte) :
    decodeOp (BitVec.ofNat 8 (0x61 + k.val)) b1 b2 = outInstr k := by
  fin_cases k <;> exact decodeOp_of_encode_eq_singleton rfl rfl b1 b2

theorem decodeOp_inpInstr (k : Fin 7) (b1 b2 : Byte) :
    decodeOp (BitVec.ofNat 8 (0x69 + k.val)) b1 b2 = inpInstr k := by
  fin_cases k <;> exact decodeOp_of_encode_eq_singleton rfl rfl b1 b2

/-! ### What changes the output side -/

/-- What the event trace is about, and the trace. -/
def outputSide (s : State) : Vector Byte 7 × Bool × List PortEvent := (s.outPort, s.q, s.events)

/-- On the output side `t` is `s`, or `s` after one port write or one write of Q. -/
inductive OutputMove (s t : State) : Prop where
  | none (h : outputSide t = outputSide s)
  | port (k : Fin 7) (v : Byte) (h : outputSide t = outputSide (outPortWrite s k v))
  | q (b : Bool) (h : outputSide t = outputSide (qWrite s b))

/-- Of the host's calls `setOutPort` writes a port, `setQ` and `reset` write Q (60_exceptions.md R252;
70_reset_and_hazards.md R260). -/
theorem hostEffect_outputMove {c : HostCall} {s t : State} (h : hostEffect c s = some t) : OutputMove s t := by
  cases c
  case setOutPort i v =>
    obtain ⟨k, -, rfl⟩ := Option.map_eq_some_iff.mp h
    exact .port k v rfl
  case setQ b =>
    cases h
    exact .q b rfl
  case reset =>
    cases h
    refine .q false ?_
    rw [resetCpu_eq, qWrite_eq]
    rfl
  case run =>
    cases h
    refine .none ?_
    simp [outputSide]
  case setByte | setBytes =>
    obtain ⟨k, -, rfl⟩ := Option.map_eq_some_iff.mp h
    refine .none ?_
    simp [outputSide]
  case setExternalFlag | setInPort =>
    obtain ⟨k, -, rfl⟩ := Option.map_eq_some_iff.mp h
    exact .none rfl
  all_goals
    cases h
    exact .none rfl

theorem Writes.outputSide_apply {w : Writes} (hport : w.port = none) (hq : w.q = none) (s : State) :
    outputSide (w.apply s) = outputSide s := by
  simp [outputSide, Writes.apply, hport, hq]

/-- Of the instructions `OUT` writes a port, `SEQ` and `REQ` write Q (R216, R224 to R227). -/
theorem exec_outputMove {i : Instr} {s t : State} (h : exec i s = .next t) : OutputMove s t := by
  by_cases hport : (writes i s).port = none
  · by_cases hq : (writes i s).q = none
    · rw [eq_of_exec_next h]
      exact .none (Writes.outputSide_apply hport hq s)
    · rcases writes_q_ne_none hq with rfl | rfl
      · cases h
        exact .q true rfl
      · cases h
        exact .q false rfl
  · obtain ⟨k, rfl⟩ := writes_port_ne_none hport
    cases (exec_outInstr k s).symm.trans h
    exact .port k (memOperand s) rfl

/-! ### Histories of recorded values (R222) -/

/-- Recording a new value keeps a history edge-triggered: the value before it is the one that is overwritten. -/
theorem EdgeHistory.record {α : Type} {history : List α} {now v : α} (h : EdgeHistory history now) (hv : now ≠ v) :
    EdgeHistory (history ++ [v]) v := by
  obtain ⟨hchain, hlast⟩ := h
  constructor
  · refine List.isChain_append.mpr ⟨hchain, .singleton v, fun a ha b hb => ?_⟩
    rw [hlast a ha]
    cases hb
    exact hv
  · simp

/-- The history of the port that is written, and of any other. -/
theorem portHistory_append_portChanged (i k : Fin 7) (es : List PortEvent) (v : Byte) :
    portHistory i (es ++ [.portChanged k v]) = if i = k then portHistory i es ++ [v] else portHistory i es := by
  by_cases h : i = k
  · simp [portHistory, h]
  · simp [portHistory, h, Ne.symm h]

theorem portHistory_append_qChanged (i : Fin 7) (es : List PortEvent) (b : Bool) :
    portHistory i (es ++ [.qChanged b]) = portHistory i es := by
  simp [portHistory]

theorem qHistory_append_portChanged (k : Fin 7) (es : List PortEvent) (v : Byte) :
    qHistory (es ++ [.portChanged k v]) = qHistory es := by
  simp [qHistory]

theorem qHistory_append_qChanged (es : List PortEvent) (b : Bool) :
    qHistory (es ++ [.qChanged b]) = qHistory es ++ [b] := by
  simp [qHistory]

/-! ### The trace stays edge-triggered and only grows (R222, R29) -/

theorem traceIsEdgeTriggered_outPortWrite {s : State} (h : TraceIsEdgeTriggered s) (k : Fin 7) (v : Byte) :
    TraceIsEdgeTriggered (outPortWrite s k v) := by
  by_cases hv : s.outPort[k] = v
  · rwa [outPortWrite_of_eq hv]
  · obtain ⟨hports, hq⟩ := h
    constructor
    · intro i
      rw [getElem_outPortWrite, outPortWrite_events, if_neg hv, portHistory_append_portChanged]
      by_cases hi : i = k
      · subst hi
        rw [if_pos rfl, if_pos rfl]
        exact (hports i).record hv
      · rw [if_neg hi, if_neg hi]
        exact hports i
    · rw [outPortWrite_of_ne hv, qHistory_append_portChanged]
      exact hq

theorem traceIsEdgeTriggered_qWrite {s : State} (h : TraceIsEdgeTriggered s) (b : Bool) :
    TraceIsEdgeTriggered (qWrite s b) := by
  by_cases hb : s.q = b
  · rwa [qWrite_of_eq hb]
  · obtain ⟨hports, hq⟩ := h
    rw [qWrite_of_ne hb]
    constructor
    · intro i
      rw [portHistory_append_qChanged]
      exact hports i
    · rw [qHistory_append_qChanged]
      exact hq.record hb

theorem outPortWrite_events_grow (s : State) (k : Fin 7) (v : Byte) : s.events <+: (outPortWrite s k v).events := by
  rw [outPortWrite_events]
  split
  · exact ⟨[], List.append_nil _⟩
  · exact ⟨_, rfl⟩

theorem qWrite_events_grow (s : State) (b : Bool) : s.events <+: (qWrite s b).events := by
  rw [qWrite_events]
  split
  · exact ⟨[], List.append_nil _⟩
  · exact ⟨_, rfl⟩

/-- The invariant of O25, for a step that began with the trace `es`. -/
def TraceGrownFrom (es : List PortEvent) (s : State) : Prop := TraceIsEdgeTriggered s ∧ es <+: s.events

section
variable {es : List PortEvent} {s t : State}

theorem TraceGrownFrom.congr (hs : TraceGrownFrom es s) (h : outputSide t = outputSide s) : TraceGrownFrom es t := by
  simp only [outputSide, Prod.mk.injEq] at h
  obtain ⟨hport, hq, hevents⟩ := h
  rw [TraceGrownFrom, TraceIsEdgeTriggered, hport, hq, hevents]
  exact hs

theorem TraceGrownFrom.outputMove (hs : TraceGrownFrom es s) (h : OutputMove s t) : TraceGrownFrom es t := by
  obtain ⟨hedge, hgrown⟩ := hs
  cases h with
  | none h => exact .congr ⟨hedge, hgrown⟩ h
  | port k v h =>
    exact .congr ⟨traceIsEdgeTriggered_outPortWrite hedge k v, hgrown.trans (outPortWrite_events_grow s k v)⟩ h
  | q b h => exact .congr ⟨traceIsEdgeTriggered_qWrite hedge b, hgrown.trans (qWrite_events_grow s b)⟩ h

end

/-- Settles O25: only the host's calls and the handlers touch the output side, each by at most one of the two writes. -/
theorem stepKeepsTraceEdgeTriggered : Obligations.StepKeepsTraceEdgeTriggered := by
  intro s t hs h
  have hgrown : TraceGrownFrom s.events t := step_keeps
    (hinputs := fun _ _ hs => hs)
    (hcall := fun _ _ _ hc hs => hs.outputMove (hostEffect_outputMove (hostCall_ok hc).2))
    (hpace := fun _ _ hs => hs)
    (hcharge := fun _ _ hs => hs)
    (hend := fun _ hs => hs)
    (hfetch := fun _ hs => hs)
    (hexec := fun _ _ _ he hs => hs.outputMove (exec_outputMove he)) h ⟨hs, [], List.append_nil _⟩
  obtain ⟨hedge, new, hnew⟩ := hgrown
  exact ⟨hedge, new, hnew.symm⟩

/-! ### OUT and INP (R224, R225) -/

/-- Settles O22: OUT is a port write of the byte at `R[X]`, and one step of `R[X]`. -/
theorem outSendsTheByteAtRX : Obligations.OutSendsTheByteAtRX := by
  intro k s b1 b2
  refine ⟨decodeOp_outInstr k b1 b2, _, exec_outInstr k s, ?_⟩
  rw [sendToPort_eq]
  refine ⟨getElem_outPortWrite s k _, fun hsame => ?_, fun hnew => ?_, fun m => ?_, ?frame⟩
  · exact (outPortWrite_events s k _).trans (if_pos hsame)
  · exact (outPortWrite_events s k _).trans (if_neg hnew)
  · simp
  case frame =>
    rw [complete, cost_outInstr, outPortWrite_eq]
    rfl

/-- Settles O23: INP is a store of the port's byte at `R[X]`, and the load of D. -/
theorem inpReadsThePortIntoMemoryAndD : Obligations.InpReadsThePortIntoMemoryAndD := by
  intro k s b1 b2
  refine ⟨decodeOp_inpInstr k b1 b2, _, exec_inpInstr k s, ?_⟩
  rw [readFromPort_eq]
  refine ⟨rfl, fun b => readByte_writeByte s _ b _, ?frame⟩
  case frame =>
    rw [complete, cost_inpInstr, writeByte_eq]
    rfl

/-! ### SEQ and REQ (R226, R227) -/

/-- Settles O24: either is a write of Q, which does nothing if Q holds the value already. -/
theorem seqAndReqReportOnlyChangesOfQ : Obligations.SeqAndReqReportOnlyChangesOfQ := by
  intro s b1 b2
  refine ⟨⟨?_, ?_⟩, fun hq => next_complete_congr .seq (qWrite_of_ne ?_),
    fun hq => next_complete_congr .seq (qWrite_of_eq hq), fun hq => next_complete_congr .req (qWrite_of_ne ?_),
    fun hq => next_complete_congr .req (qWrite_of_eq hq)⟩
  · exact decodeOp_of_encode_eq_singleton rfl rfl b1 b2
  · exact decodeOp_of_encode_eq_singleton rfl rfl b1 b2
  all_goals simp [hq]

end Sys2Proof.Machine
end

section
/-! PROOFS. The decode fault and the contract of the host interface (60_exceptions.md). Byte 68 is the one that selects
`undefined`, the one row of the table that records a fault; a host call or a host read is refused by the mode, refused
by its argument or answered, one lemma each. -/

namespace Sys2Proof.Machine

/-! ### The decode fault (R66, R235, R237) -/

/-- Byte 68 selects `undefined`, and as an encoding begins with its opcode byte, no other does. -/
theorem decodeOp_eq_undefined_iff {op b1 b2 : Byte} : decodeOp op b1 b2 = .undefined ↔ op = 0x68 := by
  constructor
  · intro h
    have hbytes := encode_decodeOp op b1 b2
    rw [h] at hbytes
    exact (List.cons.inj hbytes).1.symm
  · rintro rfl
    exact decodeOp_of_encode_eq_singleton rfl rfl b1 b2

/-- The missing handler is the decode fault: its cost is 0. -/
theorem exec_undefined (s : State) : exec .undefined s = .next (takeDecodeFault 0x68 s) := exec_eq .undefined s

/-- Settles O26: of the byte and of the term. -/
theorem decodeFaultRecordsAndEndsTheRun : Obligations.DecodeFaultRecordsAndEndsTheRun := by
  intro s op b1 b2
  refine ⟨decodeOp_eq_undefined_iff, ?_, exec_undefined s⟩
  rw [decodeOp_eq_undefined_iff.mpr rfl]
  exact exec_undefined s

/-- A turn of the loop that fetches byte 68 leaves `R[P]` past it and takes the fault; nothing is charged. -/
theorem cpuTurn_decodeFault {known : Bool} {s : State} (hr : s.running = true) (hs : s.stepRun = false)
    (hw : paceWaits known s = false) (hl : loopEnds s = false) (hop : readByte s (getReg s s.p) = 0x68) :
    cpuTurn known s = .next (takeDecodeFault 0x68 (advancePc (paceCheckpoint known s) 1)) := by
  have hfetch : fetchInstr s = .undefined := decodeOp_eq_undefined_iff.mpr hop
  have hrun := cpuTurn_runs hr hs hw hl (hfetch ▸ exec_undefined _)
  rw [hrun]
  rfl

theorem idle_eq_false_of_not_loopEnds {s : State} (h : loopEnds s = false) : s.idle = false :=
  Bool.eq_false_of_not_eq_true fun hi => absurd (loopEnds_of_idle hi) (by simp [h])

/-- Settles O27: the turn leaves the fetched state with the fault taken; an idle machine would not have fetched. -/
theorem stepOnByte68StopsTheRun : Obligations.StepOnByte68StopsTheRun := by
  intro s hin hr hl hs hop
  refine ⟨_, (step_no_inputs hin).trans (cpuTurn_decodeFault hr hs (paceWaits_free s) hl hop), ?_, ?_, rfl, rfl⟩
  · exact fun m => getReg_setReg s s.p m (getReg s s.p + 1)
  · exact runState_eq_stopped_iff.mpr ⟨rfl, idle_eq_false_of_not_loopEnds hl⟩

@[simp] theorem Writes.apply_fault (w : Writes) (s : State) : (w.apply s).fault = w.fault.elim s.fault some := rfl

theorem exec_fault {i : Instr} {s t : State} (h : exec i s = .next t) (hi : i ≠ .undefined) : t.fault = s.fault := by
  rw [eq_of_exec_next h, complete_fault, Writes.apply_fault, writes_fault_eq_none hi, Option.elim_none]

/-- Settles O28: every row of the table but one has no fault. -/
theorem everyHandlerIsTotal : Obligations.EveryHandlerIsTotal := by
  intro i s
  obtain ⟨t, ht⟩ := exec_total i s
  exact ⟨t, ht, fun hi => ⟨exec_fault ht hi, exec_running ht hi⟩⟩

/-! ### Arguments of host operations (R255) -/

theorem asIndex_eq_none {n : Nat} {i : Int} (h : i < 0 ∨ n ≤ i) : asIndex n i = none := by
  unfold asIndex
  split
  · exact if_neg (by omega)
  · rfl

theorem map_asIndex_eq_none {n : Nat} {i : Int} {α : Type} (f : Fin n → α) (h : i < 0 ∨ n ≤ i) :
    (asIndex n i).map f = none := by
  rw [asIndex_eq_none h, Option.map_none]

theorem map_asIndex_natCast {n k : Nat} {α : Type} (f : Fin n → α) (h : k < n) :
    (asIndex n k).map f = some (f ⟨k, h⟩) := by
  rw [asIndex_natCast h, Option.map_some]

/-- Every address is in range, and the index of an address is that address. -/
theorem map_asIndex_word {α : Type} (f : Word → α) (a : Word) :
    ((asIndex Config.memSize a.toNat).map fun k : Fin Config.memSize => f (BitVec.ofNat 16 k)) = some (f a) := by
  rw [map_asIndex_natCast _ (word_lt_memSize a), BitVec.ofNat_toNat, BitVec.setWidth_eq]

/-! ### What a host call answers (R253, R255) -/

section
variable {c : HostCall} {s : State}

theorem hostCall_of_forbidden (hr : s.running = true) (hc : allowedDuringRun c = false) :
    hostCall c s = .error (.hostCallDuringRun c) := by
  simp [hostCall, hr, hc]

/-- A call that the mode allows is answered with its effect, or refused for its argument if it has none. -/
theorem hostCall_of_allowed (hc : s.running = true → allowedDuringRun c = true) :
    hostCall c s = (hostEffect c s).elim (.error (.argumentOutOfRange c)) .ok := by
  have hallowed : (s.running && !allowedDuringRun c) = false := by simpa using hc
  rw [hostCall, hallowed, if_neg Bool.false_ne_true]
  cases hostEffect c s <;> rfl

theorem hostCall_of_outOfRange (hc : s.running = true → allowedDuringRun c = true) (he : hostEffect c s = none) :
    hostCall c s = .error (.argumentOutOfRange c) := by
  rw [hostCall_of_allowed hc, he, Option.elim_none]

theorem hostCall_of_hostEffect {t : State} (hc : s.running = true → allowedDuringRun c = true)
    (he : hostEffect c s = some t) : hostCall c s = .ok t := by
  rw [hostCall_of_allowed hc, he, Option.elim_some]

/-- A boundary whose first call is refused refuses the step. -/
theorem step_of_hostCall_error {cs : List HostCall} {later : List (List HostCall)} {r : Refusal}
    (hin : s.inputs = (c :: cs) :: later) (hc : hostCall c { s with inputs := later } = .error r) :
    step s = .refused r := by
  unfold step
  rw [hin]
  simp [hostCalls, hc]

end

/-- Settles O48: each of the calls named is one that `allowedDuringRun` denies. -/
theorem forbiddenHostCallsAreRefusedDuringARun : Obligations.ForbiddenHostCallsAreRefusedDuringARun := by
  intro s c cs later hr hin hnamed
  have hc : allowedDuringRun c = false := by
    rcases hnamed with rfl | rfl | ⟨-, rfl⟩ | ⟨-, -, rfl⟩ | ⟨-, -, rfl⟩ | ⟨-, rfl⟩ | ⟨-, -, rfl⟩ | ⟨-, rfl⟩ | ⟨-, rfl⟩
    all_goals rfl
  exact ⟨hostCall_of_forbidden hr hc, step_of_hostCall_error hin (hostCall_of_forbidden hr hc)⟩

/-! ### What a host read answers (R253, R254) -/

section
variable {r : HostQuery} {s : State}

theorem hostQuery_of_forbidden (hr : s.running = true) (hq : readAllowedDuringRun r = false) :
    hostQuery r s = .error (.readDuringRun r) := by
  simp [hostQuery, hr, hq]

theorem hostQuery_of_outOfRange (hr : s.running = false) (hv : hostRead r s = none) :
    hostQuery r s = .error (.readOutOfRange r) := by
  simp [hostQuery, hr, hv]

theorem hostQuery_of_hostRead {v : HostAnswer} (hq : s.running = true → readAllowedDuringRun r = true)
    (hv : hostRead r s = some v) : hostQuery r s = .ok v := by
  have hallowed : (s.running && !readAllowedDuringRun r) = false := by simpa using hq
  simp [hostQuery, hallowed, hv]

end

/-- Settles O49: an argument outside its domain has no index, so the call has no effect and the read no value. -/
theorem outOfRangeArgumentsAreRefused : Obligations.OutOfRangeArgumentsAreRefused := by
  intro s i v b bs
  refine ⟨fun hi => ?_, fun hi => ?_, fun hr => ⟨fun hi => ?_, fun hi => ?_, fun hi => ?_⟩⟩
  · exact hostCall_of_outOfRange (fun _ => rfl) (map_asIndex_eq_none _ hi)
  · exact hostCall_of_outOfRange (fun _ => rfl) (map_asIndex_eq_none _ hi)
  · exact ⟨hostCall_of_outOfRange (by simp [hr]) (map_asIndex_eq_none _ hi),
      hostQuery_of_outOfRange hr (map_asIndex_eq_none _ hi), hostQuery_of_outOfRange hr (map_asIndex_eq_none _ hi)⟩
  · exact ⟨hostCall_of_outOfRange (by simp [hr]) (map_asIndex_eq_none _ hi),
      hostCall_of_outOfRange (by simp [hr]) (map_asIndex_eq_none _ hi),
      hostQuery_of_outOfRange hr (map_asIndex_eq_none _ hi), hostQuery_of_outOfRange hr (map_asIndex_eq_none _ hi)⟩
  · exact hostQuery_of_outOfRange hr (map_asIndex_eq_none _ hi)

/-! ### Reads inside their domain (R252) -/

/-- A byte read as a signed value lies in -128..127 and is the byte modulo 256 (R254). -/
theorem byte_toInt_bounds (v : Byte) : -128 ≤ v.toInt ∧ v.toInt ≤ 127 ∧ v.toInt % 256 = v.toNat := by
  have hlt := v.isLt
  rw [BitVec.toInt_eq_toNat_cond]
  split <;> omega

theorem readAllowedDuringRun_eq_false {r : HostQuery} (hstop : r ≠ .isStop) (hidle : r ≠ .isIdle) :
    readAllowedDuringRun r = false := by
  cases r
  case isStop => exact absurd rfl hstop
  case isIdle => exact absurd rfl hidle
  all_goals rfl

/-- Settles O52: with no run in progress a read answers `hostRead`'s value; during a run two reads are answered. -/
theorem hostReadsReturnTheState : Obligations.HostReadsReturnTheState := by
  intro s
  refine ⟨hostQuery_of_hostRead (fun _ => rfl) rfl, hostQuery_of_hostRead (fun _ => rfl) rfl, fun hr => ?_,
    fun hr r hstop hidle => hostQuery_of_forbidden hr (readAllowedDuringRun_eq_false hstop hidle)⟩
  have hread {r : HostQuery} {v : HostAnswer} : hostRead r s = some v → hostQuery r s = .ok v :=
    hostQuery_of_hostRead (by simp [hr])
  exact ⟨hread rfl, hread rfl, hread rfl, hread rfl, hread rfl, hread rfl,
    fun n => hread (map_asIndex_natCast _ n.isLt), hread rfl, hread rfl, hread rfl,
    fun k => ⟨hread (map_asIndex_natCast _ k.isLt), hread (map_asIndex_natCast _ k.isLt)⟩,
    fun a => ⟨hread (map_asIndex_word (fun a => HostAnswer.byte (readByte s a)) a), (readByte s a).toInt,
      hread (map_asIndex_word (fun a => HostAnswer.signed (readByte s a).toInt) a), byte_toInt_bounds (readByte s a)⟩⟩

/-! ### The external flags and their branches (R242, R168 to R171) -/

/-- The opcode 34 + i is the short branch on the external flag of index i. -/
theorem writes_decodeOp_externalFlag (i : Fin 4) (b b2 : Byte) (s : State) :
    writes (decodeOp (BitVec.ofNat 8 (0x34 + i.val)) b b2) s = .shortBranch (.ef i) b s := by
  fin_cases i <;> rfl

theorem cost_decodeOp_externalFlag (i : Fin 4) (b b2 : Byte) :
    cost (decodeOp (BitVec.ofNat 8 (0x34 + i.val)) b b2) = 2 := by
  fin_cases i <;> rfl

/-- Settles O51: the call sets one flag, and the branch tests that flag. -/
theorem externalFlagIndexSelectsTheBranch : Obligations.ExternalFlagIndexSelectsTheBranch := by
  intro s i asserted b
  have hflags (j : Fin 4) : (s.ef.set i asserted)[j] = if j = i then asserted else s.ef[j] := by
    simp [Vector.getElem_set, Fin.ext_iff, eq_comm]
  have hcall : hostCall (.setExternalFlag i.val asserted) s = .ok { s with ef := s.ef.set i asserted } :=
    hostCall_of_hostEffect (fun _ => rfl) (map_asIndex_natCast _ i.isLt)
  have htested : (Cond.ef i).holds { s with ef := s.ef.set i asserted } = true ↔ asserted = true := by
    rw [Cond.holds, hflags, if_pos rfl]
  obtain ⟨u, hu, heffect⟩ :=
    exec_shortBranch (writes_decodeOp_externalFlag i b 0 _) (cost_decodeOp_externalFlag i b 0) htested
  exact ⟨_, u, hcall, rfl, hflags, hu, heffect⟩

end Sys2Proof.Machine
end

section
/-! PROOFS. Reset, and the hazards of a program counter that is also a data pointer (70_reset_and_hazards.md). Each is
the instruction's own effect, read at the fetched state, where `R[P]` is already past the opcode byte. -/

namespace Sys2Proof.Machine

/-! ### Through the fetch (40_execution_loop.md R80, R81) -/

/-- An opcode byte that selects one instruction, whatever follows it, has that instruction run at the fetched state. -/
theorem runInstr_of_opcode {i : Instr} {op : Byte} {s : State} (hop : readByte s (getReg s s.p) = op)
    (hi : ∀ b1 b2, decodeOp op b1 b2 = i) : runInstr s = exec i (advancePc s 1) := by
  refine runInstr_of_fetchInstr_eq ?_
  rw [fetchInstr, pc_eq, hop, hi]

theorem oneRegister_advancePc (s : State) (k : Word) : OneRegister s (advancePc s k) s.p (getReg s s.p + k) :=
  fun m => getReg_setReg s s.p m _

/-- Of two changes of one register the last is left. -/
theorem OneRegister.trans {s t u : State} {n : Nibble} {v w : Word} (hst : OneRegister s t n v)
    (htu : OneRegister t u n w) : OneRegister s u n w := fun m => by
  rw [htu m, hst m]
  split <;> rfl

/-- The fetch is no store: a store after it is one since before it. -/
theorem StoredAt.of_advancePc {s t : State} {k : Word} {a : Word} {v : Byte} (h : StoredAt (advancePc s k) t a v) :
    StoredAt s t a v := h

/-! ### OUT with X = P (R269) -/

/-- Settles O44: at the fetched state `R[X]` is the program counter, at the byte after the opcode. -/
theorem outWithXEqualPSendsTheNextByte : Obligations.OutWithXEqualPSendsTheNextByte := by
  intro k s hx hop
  obtain ⟨-, t, ht, hport, -, -, hreg, -⟩ := outSendsTheByteAtRX k (advancePc s 1) 0 0
  have hptr : getReg (advancePc s 1) (advancePc s 1).x = getReg s s.p + 1 :=
    (congrArg _ hx).trans (getReg_advancePc_self s 1)
  rw [hptr] at hport hreg
  refine ⟨t, (runInstr_of_opcode hop (decodeOp_outInstr k)).trans ht, (hport k).trans (if_pos rfl), ?_⟩
  have hpast : OneRegister (advancePc s 1) t s.p (getReg s s.p + 1 + 1) := hx ▸ hreg
  rw [BitVec.add_assoc] at hpast
  exact (oneRegister_advancePc s 1).trans hpast

/-! ### STXD with X = P and MARK with P = 2 (R270) -/

/-- What a push through the program counter does: its row stores through `R[n]`, steps `R[n]` down and keeps P, and
`R[n]` is `R[P]`. -/
theorem runInstr_push_through_pc {i : Instr} {s : State} {n : Nibble} {v : Byte}
    (hrun : runInstr s = exec i (advancePc s 1)) (hn : n = s.p)
    (hstore : (writes i (advancePc s 1)).store = some (getReg (advancePc s 1) n, v))
    (hreg : (writes i (advancePc s 1)).reg = some (n, getReg (advancePc s 1) n - 1))
    (hp : (writes i (advancePc s 1)).p = none) :
    ∃ t, runInstr s = .next t ∧ StoredAt s t (getReg s s.p + 1) v ∧ getReg t t.p = getReg s s.p := by
  subst hn
  have hstored := (storedAt_of_store_eq_some hstore).of_advancePc
  have hback := oneRegister_of_reg_eq_some hreg s.p
  rw [getReg_advancePc_self] at hstored hback
  rw [if_pos rfl, BitVec.add_sub_cancel] at hback
  have hsame : (complete i ((writes i (advancePc s 1)).apply (advancePc s 1))).p = s.p := congrArg (·.getD s.p) hp
  exact ⟨_, hrun.trans (exec_eq i _), hstored, by rw [hsame, hback]⟩

/-- Settles O45: STXD's pointer is `R[X]`, MARK's `R[2]`; the fetch has moved it by one, and the row steps it back. -/
theorem pushThroughTheProgramCounterRepeats : Obligations.PushThroughTheProgramCounterRepeats := by
  intro s
  refine ⟨fun hx hop => ?stxd, fun hp hop => ?mark⟩
  case stxd =>
    have hrun := runInstr_of_opcode hop (decodeOp_of_encode_eq_singleton (i := .stxd) rfl rfl)
    exact runInstr_push_through_pc hrun hx rfl rfl rfl
  case mark =>
    have hrun := runInstr_of_opcode hop (decodeOp_of_encode_eq_singleton (i := .mark) rfl rfl)
    exact runInstr_push_through_pc hrun hp.symm rfl rfl rfl

/-! ### Reset (R260, R261, R263, R265) -/

/-- A second `reset()` finds Q off and `R[0]` clear, so it changes nothing and makes no event. -/
theorem resetCpu_resetCpu (s : State) : resetCpu (resetCpu s) = resetCpu s := by
  simp [resetCpu_eq]

/-- Settles O46: `reset()` is one update of the fields named, and idempotent. -/
theorem resetWritesSevenThingsOnly : Obligations.ResetWritesSevenThingsOnly := by
  intro s hr
  have hagain : hostCall .reset (resetCpu s) = .ok (resetCpu s) := by
    rw [hostCall_reset (by rw [resetCpu_eq]; exact hr), resetCpu_resetCpu]
  refine ⟨resetCpu s, hostCall_reset hr, getReg_resetCpu s, ?_⟩
  rw [resetCpu_eq] at hagain ⊢
  exact ⟨rfl, rfl, rfl, rfl, rfl, rfl, fun hq => if_pos hq, fun hq => if_neg (by simp [hq]), rfl, hagain⟩

end Sys2Proof.Machine
end
